-- ==== Sys2Proof/Word.lean ====
section
/-! DEFINITION. The word types of the PNGme CRC-32 block: bytes, 32-bit words, 40-bit command words (rules R6, R10, R70). -/

namespace Sys2Proof

/-- A stream byte (rule R10). -/
abbrev Byte := BitVec 8

/-- A 32-bit register, argument or response (rules R6, R10). -/
abbrev Word := BitVec 32

/-- A command word `{op, arg}`: `op` in bits [39:32], `arg` in bits [31:0] (rule R70). -/
abbrev CmdWord := BitVec 40

end Sys2Proof
end

