-- ==== Sys2Proof/Syntax.lean ====
section
/-! DEFINITION. The commands: one constructor for each row of `spec/opcode_table.json` (rule R72), and what a command word decodes to (rule R80). -/

namespace Sys2Proof

/-- The commands of the PCRC command set, version 1 (rule R72).
An operand is the 32-bit argument as rule R74 names it. A well-formed DATAn operand fits in 8n bits (WellFormed.lean). -/
inductive Instr where
  /-- NOP (rule R170). -/
  | nop
  /-- INIT (rule R135). -/
  | init
  /-- LDTYPE: the 4 type bytes, byte 0 in bits [31:24] (rule R100). -/
  | ldtype (t : Word)
  /-- LDTYPET: the 4 type bytes, byte 0 in bits [31:24] (rule R102). -/
  | ldtypet (t : Word)
  /-- DATA1: one payload byte (rule R136). -/
  | data1 (v : Word)
  /-- DATA2: two payload bytes, most significant first (rule R137). -/
  | data2 (v : Word)
  /-- DATA3: three payload bytes, most significant first (rule R138). -/
  | data3 (v : Word)
  /-- DATA4: four payload bytes, most significant first (rule R139). -/
  | data4 (v : Word)
  /-- FINAL (rule R143). -/
  | final
  /-- CHECK: the expected checksum (rule R145). -/
  | check (c : Word)
  /-- RD: the index of a read register (rules R34, R171). -/
  | rd (i : BitVec 3)
  deriving DecidableEq, Repr

/-- What a 40-bit word decodes to (rule R80): a command of the table, or an illegal opcode, named by its value (rule R76). -/
inductive Decoded where
  | instr (i : Instr)
  | illegal (op : BitVec 8)
  deriving DecidableEq, Repr

end Sys2Proof
end

