-- ==== Sys2Proof/WellFormed.lean ====
section
/-! DEFINITION. Which terms of Instr are commands that can be written: the operand of DATAn fits in 8n bits (rules R74, R78). -/

namespace Sys2Proof

/-- The operand fits in n bytes: "a number that fits in 8n bits" (rule R78). -/
def fitsBytes (n : Nat) (v : Word) : Bool := decide (v.toNat < 2 ^ (8 * n))

/-- The operand check of rule R78. Every other operand fits by its type. -/
def Instr.wellFormed : Instr → Bool
  | .nop => true
  | .init => true
  | .ldtype _ => true
  | .ldtypet _ => true
  | .data1 v => fitsBytes 1 v
  | .data2 v => fitsBytes 2 v
  | .data3 v => fitsBytes 3 v
  | .data4 _ => true
  | .final => true
  | .check _ => true
  | .rd _ => true

end Sys2Proof
end

