-- ==== Sys2Proof/Decode.lean ====
section
/-! DEFINITION. The decoder (rule R80), total on 40-bit words, and the encoder (rules R70, R72, R74), both from the opcode map of rule R72. -/

namespace Sys2Proof

/-- `op`, bits [39:32] of a command word (rule R70). -/
def cmdOp (w : CmdWord) : BitVec 8 := w.extractLsb' 32 8

/-- `arg`, bits [31:0] of a command word (rule R70). -/
def cmdArg (w : CmdWord) : Word := w.extractLsb' 0 32

/-- A command word from its two fields, `{op, arg}` (rule R70). -/
def cmdWord (op : BitVec 8) (arg : Word) : CmdWord := op ++ arg

/-- The low n bytes of an argument, the bits above them cleared: what a DATAn uses of `arg` (rules R74, R75). -/
def lowBytes (n : Nat) (arg : Word) : Word := (arg.setWidth (8 * n)).setWidth 32

/-- The decoder of rule R80 on the two fields.
Ignored argument bits are dropped, so that two words that differ only in them decode to the same command (rule R75). -/
def decodeFields (op : BitVec 8) (arg : Word) : Decoded :=
  if op = 0x00#8 then .instr .nop
  else if op = 0x01#8 then .instr .init
  else if op = 0x02#8 then .instr (.ldtype arg)
  else if op = 0x03#8 then .instr (.ldtypet arg)
  else if op = 0x08#8 then .instr (.data1 (lowBytes 1 arg))
  else if op = 0x09#8 then .instr (.data2 (lowBytes 2 arg))
  else if op = 0x0A#8 then .instr (.data3 (lowBytes 3 arg))
  else if op = 0x0B#8 then .instr (.data4 arg)
  else if op = 0x10#8 then .instr .final
  else if op = 0x11#8 then .instr (.check arg)
  else if op = 0x20#8 then .instr (.rd (arg.extractLsb' 0 3))
  else .illegal op

/-- The decoder: a total function from 40-bit words (rule R80). -/
def decode (w : CmdWord) : Decoded := decodeFields (cmdOp w) (cmdArg w)

/-- The instruction the decoder reads from a word numbered as `spec/opcode_table.json` numbers it, `op` in bits 39:32.
A command is one 40-bit word (rule R71), so there is no byte order to undo, and bits above `nbits` are 0. -/
def decodeTableWord (nbits w : Nat) : Option Instr :=
  match decode (BitVec.ofNat 40 (w % 2 ^ nbits)) with
  | .instr i => some i
  | .illegal _ => none

/-- The opcode of a command (rule R72). -/
def Instr.opcode : Instr → BitVec 8
  | .nop => 0x00#8
  | .init => 0x01#8
  | .ldtype _ => 0x02#8
  | .ldtypet _ => 0x03#8
  | .data1 _ => 0x08#8
  | .data2 _ => 0x09#8
  | .data3 _ => 0x0A#8
  | .data4 _ => 0x0B#8
  | .final => 0x10#8
  | .check _ => 0x11#8
  | .rd _ => 0x20#8

/-- The argument of a command, its unused bits written as 0 (rules R74, R75). -/
def Instr.argument : Instr → Word
  | .nop => 0#32
  | .init => 0#32
  | .ldtype t => t
  | .ldtypet t => t
  | .data1 v => v
  | .data2 v => v
  | .data3 v => v
  | .data4 v => v
  | .final => 0#32
  | .check c => c
  | .rd i => i.setWidth 32

/-- The `arg` bits a command uses (rules R72, R75). The others are ignored. -/
def Instr.usedArg : Instr → Word
  | .nop => 0#32
  | .init => 0#32
  | .ldtype _ => 0xFFFFFFFF#32
  | .ldtypet _ => 0xFFFFFFFF#32
  | .data1 _ => 0x000000FF#32
  | .data2 _ => 0x0000FFFF#32
  | .data3 _ => 0x00FFFFFF#32
  | .data4 _ => 0xFFFFFFFF#32
  | .final => 0#32
  | .check _ => 0xFFFFFFFF#32
  | .rd _ => 0x00000007#32

/-- The encoder: the command word of an instruction (rules R70, R72, R75). -/
def encode (i : Instr) : CmdWord := cmdWord i.opcode i.argument

end Sys2Proof
end

