-- ==== Sys2Proof/Config.lean ====
section
/-! DEFINITION. What is fixed for the block (rules R2, R6) and the values the spec leaves open: the state before the first reset (rules R233, I1 of `93_implementation_defined.md`). -/

namespace Sys2Proof

/-- ID, the constant "PCRC" of command set version 1 (rules R2, R32). -/
def Config.id : Word := 0x50435243#32

/-- The largest payload length, 0xFFFFFFFF (rules R6, R142). -/
def Config.lenMax : Nat := 0xFFFFFFFF

/-- CRC before the first reset: any value (rule R233). -/
opaque Config.powerOnCrc : Word
/-- RESULT before the first reset: any value (rule R233). -/
opaque Config.powerOnResult : Word
/-- TYPE before the first reset: any value (rule R233). -/
opaque Config.powerOnType : Word
/-- PHASE before the first reset, as its 2 bits: any value (rule R233). -/
opaque Config.powerOnPhase : BitVec 2
/-- LEN before the first reset: any value (rule R233). -/
opaque Config.powerOnLen : Word
/-- MATCH before the first reset: any value (rule R233). -/
opaque Config.powerOnMatch : Bool
/-- ERR before the first reset: any value of its 4 bits (rule R233). -/
opaque Config.powerOnErr : BitVec 4
/-- The response port before the first reset: any value. -/
opaque Config.powerOnRsp : Option Word

end Sys2Proof
end

