-- ==== Sys2Proof/Machine/State.lean ====
section
/-! DEFINITION. The state of the block (rules R20 to R28), its interface to the host (rules R33, R35, R52), its reset value (rule R231), and the reasons a step can stop. -/

namespace Sys2Proof.Machine

/-- PHASE, the sequencing state (rule R25). -/
inductive Phase where
  /-- After reset, no computation started. -/
  | idle
  /-- After INIT, waiting for the 4 type bytes. -/
  | type
  /-- Type absorbed, absorbing payload bytes. -/
  | data
  /-- RESULT captured. -/
  | done
  deriving DecidableEq, Repr

/-- The error codes of rule R201: "a model's error type has six constructors" (I4 of `93_implementation_defined.md`). -/
inductive ErrCode where
  /-- E_NONE: no error since INIT or reset. -/
  | none
  /-- E_INVALID_TYPE: LDTYPET was given a byte that is no ASCII letter. -/
  | invalidType
  /-- E_CHECKSUM: RESULT differs from the CHECK argument. -/
  | checksum
  /-- E_SEQUENCE: a command in a phase that does not accept it. -/
  | sequence
  /-- E_LENGTH_OVF: DATAn would take LEN past 0xFFFFFFFF. -/
  | lengthOvf
  /-- E_ILLEGAL_OP: an opcode not in the opcode map. -/
  | illegalOp
  deriving DecidableEq, Repr

/-- One action of the host on the block's ports (rules R33, R52, R230).
DESIGN CHOICE (log 1): the host's choices are the model's input, held as data in State. Safe. -/
inductive HostInput where
  /-- A command transaction: the word is offered until accepted, executed and answered (rules R33, R52). -/
  | command (w : CmdWord)
  /-- The host takes the pending response (`rsp_ready`, rule R33) and offers no command. -/
  | takeResponse
  /-- `rst` is 1 at a clock edge (rule R230). -/
  | rst
  deriving DecidableEq, Repr

/-- The state of the block and of its ports.
The first seven fields are all the state the spec gives the block (rules R20, R36). -/
structure State where
  /-- CRC, the running register before the final inversion (rule R22). -/
  crc : Word
  /-- RESULT, the finished checksum (rule R23). -/
  result : Word
  /-- TYPE, the 4 type bytes, byte 0 in bits [31:24] (rule R24). -/
  typeCode : Word
  /-- PHASE (rule R25). -/
  phase : Phase
  /-- LEN, the payload bytes absorbed since INIT (rule R26). -/
  len : Word
  /-- MATCH (rule R27). -/
  matchFlag : Bool
  /-- ERR, a 4-bit field (rule R28). DEDUCED (log 4): held as its 4 bits, codes 6 to 15 are never produced. Safe. -/
  err : BitVec 4
  /-- The response port (rules R33, R35): the response of the last accepted command until the host takes it.
  DEDUCED (log 3). Safe. -/
  rsp : Option Word
  /-- What the host does next, first input first. DESIGN CHOICE (log 1): the model's own field, not the block's. Safe. -/
  inputs : List HostInput
  deriving DecidableEq, Repr

/-- The reasons the block stops: there are none.
"The block has no trap mechanism" and every error is recorded in ERR (rules R200, R204). DEDUCED (log 12). Safe. -/
inductive Fault : Type where
  deriving DecidableEq, Repr

/-- The reasons the model has no answer for an instruction. -/
inductive Refusal where
  /-- Raised only by an arm of exec whose instruction has no meaning yet, under its mnemonic. No arm raises it. Safe. -/
  | notModelled (mnemonic : String)
  deriving DecidableEq, Repr

/-- What a meaning answers. -/
abbrev Result := Host.Outcome State Fault Refusal

/-- The state right after reset (rule R231).
The response port is empty (rule R230) and the host has not acted yet (log 1, DESIGN CHOICE). -/
def State.reset : State where
  crc := 0xFFFFFFFF#32
  result := 0x00000000#32
  typeCode := 0x00000000#32
  phase := .idle
  len := 0x00000000#32
  matchFlag := false
  err := 0#4
  rsp := none
  inputs := []

/-- PHASE from its 2 bits (rule R25). -/
def Phase.ofCode (b : BitVec 2) : Phase :=
  if b = 0#2 then .idle else if b = 1#2 then .type else if b = 2#2 then .data else .done

/-- The state before the first reset after power-on: "any value of every element" (rule R233, I1), for a host's inputs.
DESIGN CHOICE (log 10): opaque constants. Safe. -/
def State.powerOn (inputs : List HostInput) : State where
  crc := Config.powerOnCrc
  result := Config.powerOnResult
  typeCode := Config.powerOnType
  phase := Phase.ofCode Config.powerOnPhase
  len := Config.powerOnLen
  matchFlag := Config.powerOnMatch
  err := Config.powerOnErr
  rsp := Config.powerOnRsp
  inputs := inputs

end Sys2Proof.Machine
end

