-- ==== Sys2Proof/Machine/Operands.lean ====
section
/-! DEFINITION. The operands a command assembles from its argument (rules R8, R55, R74) and the ASCII letter check (rule R11). -/

namespace Sys2Proof.Machine

/-- `bytes_be(w, n)`: the n low bytes of w, most significant first (rule R9). -/
def bytesBe (w : Word) : Nat → List Byte
  | 0 => []
  | n + 1 => w.extractLsb' (8 * n) 8 :: bytesBe w n

/-- Type byte 0 of a word that holds a type code, bits [31:24] (rule R8). -/
def typeByte0 (t : Word) : Byte := t.extractLsb' 24 8
/-- Type byte 1, bits [23:16] (rule R8). -/
def typeByte1 (t : Word) : Byte := t.extractLsb' 16 8
/-- Type byte 2, bits [15:8] (rule R8). -/
def typeByte2 (t : Word) : Byte := t.extractLsb' 8 8
/-- Type byte 3, bits [7:0] (rule R8). -/
def typeByte3 (t : Word) : Byte := t.extractLsb' 0 8

/-- The 4 type bytes of an argument in stream order (rules R55, R74). -/
def typeBytes (t : Word) : List Byte := [typeByte0 t, typeByte1 t, typeByte2 t, typeByte3 t]

/-- `alpha(b)`: b is an ASCII letter (rule R11). -/
def alpha (b : Byte) : Bool :=
  (decide (0x41#8 ≤ b) && decide (b ≤ 0x5A#8)) || (decide (0x61#8 ≤ b) && decide (b ≤ 0x7A#8))

/-- All 4 bytes of a type code are ASCII letters (rules R102, R112). -/
def allAlpha (t : Word) : Bool :=
  alpha (typeByte0 t) && alpha (typeByte1 t) && alpha (typeByte2 t) && alpha (typeByte3 t)

/-- The word of 4 bytes, the first most significant: a big-endian u32 (rules R8, R53). -/
def wordOfBytes (a b c d : Byte) : Word := a ++ b ++ c ++ d

end Sys2Proof.Machine
end

