-- ==== Sys2Proof/Machine/Crc.lean ====
section
/-! DEFINITION. The CRC-32 arithmetic (rules R130 to R132) and its table form (rule R148). PRESUMED (log 5): the numbers are the spec's own, from general knowledge, confirmed by its vector W6. -/

namespace Sys2Proof.Machine

/-- The polynomial in bit-reversed form (rules R54, R130). -/
def crcPoly : Word := 0xEDB88320#32

/-- The value the register starts from (rules R132, R135). -/
def crcInit : Word := 0xFFFFFFFF#32

/-- The final exclusive-or (rules R23, R132). -/
def crcXorOut : Word := 0xFFFFFFFF#32

/-- One shift of the register: the body of the loop of rule R130. -/
def crcShift (c : Word) : Word :=
  if c.getLsbD 0 then (c >>> 1) ^^^ crcPoly else c >>> 1

/-- n shifts of the register. -/
def crcShifts : Nat → Word → Word
  | 0, c => c
  | n + 1, c => crcShifts n (crcShift c)

/-- `crc_byte(c, b)`: the one-byte step (rule R130). -/
def crcByte (c : Word) (b : Byte) : Word := crcShifts 8 (c ^^^ b.setWidth 32)

/-- `crc_bytes(c, s)`: the one-byte step over s, first byte first (rule R131). -/
def crcBytes (c : Word) : List Byte → Word
  | [] => c
  | b :: t => crcBytes (crcByte c b) t

/-- `CRC32_IEEE(m)`: the checksum of a byte sequence (rule R132). -/
def crc32 (m : List Byte) : Word := crcBytes crcInit m ^^^ crcXorOut

/-- The table entry `T[i] = crc_byte(0, i)` (rule R148). -/
def crcTable (i : Byte) : Word := crcByte 0#32 i

/-- The one-byte step by the table (rule R148). -/
def crcByteByTable (c : Word) (b : Byte) : Word :=
  (c >>> 8) ^^^ crcTable ((c ^^^ b.setWidth 32).extractLsb' 0 8)

end Sys2Proof.Machine
end

