-- ==== Sys2Proof/Machine/Flags.lean ====
section
/-! DEFINITION. The type-code decoder (rules R105 to R112) and the words STATUS and FLAGS it and the state are read through (rules R30, R31). -/

namespace Sys2Proof.Machine

/-- CRITICAL: bit 5 of type byte 0 is 0 (rule R106). -/
def critical (t : Word) : Bool := (typeByte0 t &&& 0x20#8) == 0#8
/-- PUBLIC: bit 5 of type byte 1 is 0 (rule R107). -/
def isPublic (t : Word) : Bool := (typeByte1 t &&& 0x20#8) == 0#8
/-- RSVOK: bit 5 of type byte 2 is 0 (rule R108). -/
def rsvOk (t : Word) : Bool := (typeByte2 t &&& 0x20#8) == 0#8
/-- SAFE: bit 5 of type byte 3 is 1 (rule R109). -/
def safeToCopy (t : Word) : Bool := (typeByte3 t &&& 0x20#8) != 0#8
/-- VALID is RSVOK, with no alphabetic condition (rules R110, R111). -/
def valid (t : Word) : Bool := rsvOk t

/-- FLAGS[5:0] of a type code: `{ALPHA, VALID, SAFE, RSVOK, PUBLIC, CRITICAL}` (rule R31). -/
def flagBits (t : Word) : BitVec 6 :=
  BitVec.ofBool (allAlpha t) ++ BitVec.ofBool (valid t) ++ BitVec.ofBool (safeToCopy t) ++
    BitVec.ofBool (rsvOk t) ++ BitVec.ofBool (isPublic t) ++ BitVec.ofBool (critical t)

/-- FLAGS, zero-extended (rule R31). It is a function of TYPE alone (rules R29, R105). -/
def State.flags (s : State) : Word := (flagBits s.typeCode).setWidth 32

/-- The 2 bits of PHASE (rule R25). -/
def Phase.code : Phase → BitVec 2
  | .idle => 0#2
  | .type => 1#2
  | .data => 2#2
  | .done => 3#2

/-- The 4-bit error codes (rule R201). -/
def ErrCode.code : ErrCode → BitVec 4
  | .none => 0#4
  | .invalidType => 1#4
  | .checksum => 2#4
  | .sequence => 3#4
  | .lengthOvf => 4#4
  | .illegalOp => 5#4

/-- STATUS[7:0]: `{ERR[3:0], 0, MATCH, PHASE[1:0]}` (rule R30). -/
def State.statusByte (s : State) : BitVec 8 :=
  s.err ++ 0#1 ++ BitVec.ofBool s.matchFlag ++ s.phase.code

/-- STATUS, zero-extended (rule R30). -/
def State.status (s : State) : Word := s.statusByte.setWidth 32

end Sys2Proof.Machine
end

