-- ==== Sys2Proof/Machine/Ops.lean ====
section
/-! DEFINITION. The operations the commands share: answering (rule R35), recording an error (rule R204), the gate and the phase check (rules R203, R206), clearing (rules R135, R230), absorbing bytes (rules R100, R140), the read map (rule R34) and the ports (rule R33). -/

namespace Sys2Proof.Machine

/-- `resp <- v` (rule R9): v becomes the response of the command. -/
def State.respond (s : State) (v : Word) : State := { s with rsp := some v }

/-- `resp <- STATUS` (rule R35): the response is STATUS after the command. -/
def State.answer (s : State) : State := s.respond s.status

/-- The end of a command whose response is STATUS. -/
def finish (s : State) : Result := .next s.answer

/-- `if ERR == 0: ERR <- code` (rule R204). -/
def State.recordErr (s : State) (e : ErrCode) : State :=
  if s.err = 0#4 then { s with err := e.code } else s

/-- `raise Err(code)`: record the code, answer STATUS, end the command (rule R204).
This is the one way an error is taken. It makes no other write and transfers control nowhere (rule R200). -/
def raiseErr (e : ErrCode) (s : State) : Result := finish (s.recordErr e)

/-- The gate: while ERR is not 0 a gated command is ignored and answers STATUS (rule R203).
It comes before every other check (rule R206). -/
def gated (body : State → Result) (s : State) : Result :=
  if s.err = 0#4 then body s else finish s

/-- The phase check: a command outside the phase that accepts it raises E_SEQUENCE (rules R25, R206). -/
def inPhase (p : Phase) (body : State → Result) (s : State) : Result :=
  if s.phase = p then body s else raiseErr .sequence s

/-- Every element at its reset value but PHASE, which becomes p (rules R231, R234).
The only return from an error is a clear: it restores nothing (rule R208). -/
def State.clear (s : State) (p : Phase) : State :=
  { s with crc := crcInit, result := 0#32, typeCode := 0#32, phase := p, len := 0#32, matchFlag := false, err := 0#4 }

/-- A type code is loaded: TYPE holds it, the register absorbs its 4 bytes, PHASE moves to DATA (rules R100, R102). -/
def State.loadType (s : State) (t : Word) : State :=
  { s with typeCode := t, crc := crcBytes s.crc (typeBytes t), phase := .data }

/-- n payload bytes are absorbed and counted (rule R140). -/
def State.absorb (s : State) (bs : List Byte) : State :=
  { s with crc := crcBytes s.crc bs, len := s.len + BitVec.ofNat 32 bs.length }

/-- The checksum is captured and PHASE moves to DONE (rule R143). -/
def State.capture (s : State) : State :=
  { s with result := s.crc ^^^ crcXorOut, phase := .done }

/-- `MATCH <- b` (rule R145). -/
def State.setMatch (s : State) (b : Bool) : State := { s with matchFlag := b }

/-- The common behaviour of DATAn for n payload bytes (rule R140).
The length is compared as an unbounded integer, and a command that would pass 0xFFFFFFFF absorbs nothing (rule R142). -/
def absorbPayload (n : Nat) (arg : Word) : State → Result :=
  gated (inPhase .data fun s =>
    if Config.lenMax < s.len.toNat + n then raiseErr .lengthOvf s
    else finish (s.absorb (bytesBe arg n)))

/-- `x[i]`, the read map (rule R34). Index 7 is reserved and reads 0 (rule R172). -/
def State.readReg (s : State) (i : BitVec 3) : Word :=
  if i = 0#3 then s.status
  else if i = 1#3 then s.result
  else if i = 2#3 then s.crc
  else if i = 3#3 then s.typeCode
  else if i = 4#3 then s.flags
  else if i = 5#3 then s.len
  else if i = 6#3 then Config.id
  else 0#32

/-- The host takes the pending response, if there is one (rules R33, R244). -/
def State.takeRsp (s : State) : State := { s with rsp := none }

/-- The `rst` step: every element takes its reset value, and no response is available (rules R230, R231).
What the host does next is the host's and stays. -/
def State.applyRst (s : State) : State := { s.clear .idle with rsp := none }

/-- `status_out`: STATUS[7:0] of the current state (rule R33). -/
def State.statusOut (s : State) : BitVec 8 := s.status.extractLsb' 0 8

/-- `flags_out`: FLAGS[5:0] of the current state (rule R33). -/
def State.flagsOut (s : State) : BitVec 6 := s.flags.extractLsb' 0 6

/-- `rst` is 1 at the next clock edge. -/
def State.rstPort (s : State) : Bool := s.inputs.head? == some .rst

/-- `rsp_valid`: the response of the last accepted command is available, and 0 while `rst` is 1 (rules R33, R230). -/
def State.rspValid (s : State) : Bool := !s.rstPort && s.rsp.isSome

/-- `rsp_data`: the response word, while `rsp_valid` is 1 (rules R33, R35).
The spec gives the port no value while `rsp_valid` is 0, a response still pending while `rst` is 1 among these cases
(rule R230); it then has none here. DESIGN CHOICE (log 15). Safe. -/
def State.rspData (s : State) : Option Word := if s.rspValid then s.rsp else none

/-- `cmd_ready`: low from acceptance until the response has been taken, and 0 while `rst` is 1 (rules R33, R230). -/
def State.cmdReady (s : State) : Bool := !s.rstPort && s.rsp.isNone

end Sys2Proof.Machine
end

