-- ==== Sys2Proof/Machine/Control.lean ====
section
/-! DEFINITION. The control commands NOP and RD, and the illegal opcodes (`42_control.md`, rules R170 to R174). -/

namespace Sys2Proof.Machine

/-- NOP: answer STATUS whatever ERR is, and change nothing (rule R170). -/
def execNop (s : State) : Result := finish s

/-- RD: answer the read register, whatever ERR and PHASE are, and change nothing (rules R171, R172). -/
def execRd (i : BitVec 3) (s : State) : Result := .next (s.respond (s.readReg i))

/-- An illegal opcode: gated, and otherwise it raises E_ILLEGAL_OP, whatever its value and argument (rules R76, R174). -/
def execIllegal (_op : BitVec 8) (s : State) : Result := gated (raiseErr .illegalOp) s

end Sys2Proof.Machine
end

