-- ==== Sys2Proof/Machine/CrcGenerator.lean ====
section
/-! DEFINITION. The CRC-32 generator and checker: INIT, DATA1 to DATA4, FINAL, CHECK (`41_crc_generator.md`, rules R135 to R146). -/

namespace Sys2Proof.Machine

/-- INIT: start a chunk computation. It is not gated, and it is the only command that clears ERR (rules R135, R208). -/
def execInit (s : State) : Result := finish (s.clear .type)

/-- DATA1: absorb `arg[7:0]` (rule R136). -/
def execData1 (arg : Word) (s : State) : Result := absorbPayload 1 arg s

/-- DATA2: absorb `arg[15:8]`, then `arg[7:0]` (rule R137). -/
def execData2 (arg : Word) (s : State) : Result := absorbPayload 2 arg s

/-- DATA3: absorb `arg[23:16]`, `arg[15:8]` and `arg[7:0]` (rule R138). -/
def execData3 (arg : Word) (s : State) : Result := absorbPayload 3 arg s

/-- DATA4: absorb `arg[31:24]` down to `arg[7:0]` (rule R139). -/
def execData4 (arg : Word) (s : State) : Result := absorbPayload 4 arg s

/-- FINAL: finish the checksum. CRC keeps the raw register (rules R143, R144). -/
def execFinal (s : State) : Result :=
  gated (inPhase .data fun s => finish s.capture) s

/-- CHECK: compare RESULT with the expected checksum.
On a mismatch MATCH is cleared and then E_CHECKSUM is raised, and the write to MATCH stands (rules R145, R204). -/
def execCheck (c : Word) (s : State) : Result :=
  gated (inPhase .done fun s =>
    if s.result = c then finish (s.setMatch true) else raiseErr .checksum (s.setMatch false)) s

end Sys2Proof.Machine
end

