-- ==== Sys2Proof/Machine/TypeDecoder.lean ====
section
/-! DEFINITION. The type-code loads LDTYPE and LDTYPET (`40_type_decoder.md`, rules R100 to R103). -/

namespace Sys2Proof.Machine

/-- LDTYPE: raw type-code load, with no validation of its bytes (rules R100, R101). -/
def execLdtype (t : Word) (s : State) : Result :=
  gated (inPhase .type fun s => finish (s.loadType t)) s

/-- LDTYPET: type-code load that checks all four bytes before it changes any state (rules R102, R103). -/
def execLdtypet (t : Word) (s : State) : Result :=
  gated (inPhase .type fun s =>
    if allAlpha t then finish (s.loadType t) else raiseErr .invalidType s) s

end Sys2Proof.Machine
end

