-- ==== Sys2Proof/Machine/Dispatch.lean ====
section
/-! DEFINITION. One arm for each command: which meaning it has. -/

namespace Sys2Proof.Machine

/-- The effect of a command (rule R72 names each one's rule). -/
def exec (i : Instr) (s : State) : Host.Outcome State Fault Refusal :=
  match i with
  | .nop => Sys2Proof.Machine.execNop s
  | .init => Sys2Proof.Machine.execInit s
  | .ldtype t => Sys2Proof.Machine.execLdtype t s
  | .ldtypet t => Sys2Proof.Machine.execLdtypet t s
  | .data1 v => Sys2Proof.Machine.execData1 v s
  | .data2 v => Sys2Proof.Machine.execData2 v s
  | .data3 v => Sys2Proof.Machine.execData3 v s
  | .data4 v => Sys2Proof.Machine.execData4 v s
  | .final => Sys2Proof.Machine.execFinal s
  | .check c => Sys2Proof.Machine.execCheck c s
  | .rd r => Sys2Proof.Machine.execRd r s

end Sys2Proof.Machine
end

