-- ==== Sys2Proof/Machine/Step.lean ====
section
/-! DEFINITION. One step of the block: one command, one `rst`, one response taken, or nothing while the host does nothing (rules R52, R60, R230, R246). -/

namespace Sys2Proof.Machine

/-- The effect of a decoded command word: a command's meaning, or an illegal opcode's (rules R80, R174). -/
def execDecoded : Decoded → State → Host.Outcome State Fault Refusal
  | .instr i, s => exec i s
  | .illegal op, s => execIllegal op s

/-- One step.
A command word is accepted after the pending response has been taken (rule R244), and is executed whole (rule R58).
With no input the block stays as it is. DESIGN CHOICE (log 2). Safe. -/
def step (s : State) : Host.Outcome State Fault Refusal :=
  match s.inputs with
  | [] => .next s
  | .rst :: rest => .next ({ s with inputs := rest } : State).applyRst
  | .takeResponse :: rest => .next ({ s with inputs := rest } : State).takeRsp
  | .command w :: rest => execDecoded (decode w) ({ s with inputs := rest } : State).takeRsp

/-- The host offers one more command word before its other inputs, so that the very next step runs it (log 9).
A word is numbered as `spec/opcode_table.json` numbers it, and bits above `nbits` are 0 (log 8). -/
def State.withFetchWord (s : State) (nbits w : Nat) : State :=
  { s with inputs := .command (BitVec.ofNat 40 (w % 2 ^ nbits)) :: s.inputs }

end Sys2Proof.Machine
end

