-- ==== Sys2Proof/Machine/Assembler.lean ====
section
/-! DEFINITION. The assembler, the disassembler and the pseudo-instructions (rules R75, R78, R79). Details of the text the spec does not fix are DESIGN CHOICE (log 16). They are no part of the step. -/

namespace Sys2Proof.Machine

/-- An operand as an assembly line writes it (rules R78, R79). -/
inductive AsmOperand where
  /-- A number, decimal or hexadecimal. -/
  | num (n : Nat)
  /-- A string in double quotes. -/
  | str (cs : List Char)
  /-- A bare name, such as a read register's. -/
  | name (cs : List Char)
  /-- A list of byte values: an operand of the pseudo-instructions only. -/
  | bytes (bs : List Nat)
  deriving DecidableEq, Repr

/-- The ASCII bytes of a string, refused where a character is not ASCII (rule R78). -/
def asciiBytes : List Char → Option (List Byte)
  | [] => some []
  | c :: cs =>
    if c.toNat < 128 then (asciiBytes cs).map fun bs => BitVec.ofNat 8 c.toNat :: bs else none

/-- The byte values of a list of numbers, refused where one is no byte. -/
def byteValues : List Nat → Option (List Byte)
  | [] => some []
  | n :: ns => if n < 256 then (byteValues ns).map fun bs => BitVec.ofNat 8 n :: bs else none

/-- The number whose big-endian bytes these are (rules R53, R74). -/
def wordOfList (bs : List Byte) : Word := bs.foldl (fun w b => (w <<< 8) ||| b.setWidth 32) 0#32

/-- An operand of n bytes: a number that fits in 8n bits, or a string of exactly n ASCII characters, whose first character
is the earliest byte (rule R78). -/
def byteOperand (n : Nat) : AsmOperand → Option Word
  | .num v => if v < 2 ^ (8 * n) then some (BitVec.ofNat 32 v) else none
  | .str cs => if cs.length = n then (asciiBytes cs).map wordOfList else none
  | .name _ => none
  | .bytes _ => none

/-- The operand of CHECK: a 32-bit number (rule R78). -/
def crcOperand : AsmOperand → Option Word
  | .num v => if v < 2 ^ 32 then some (BitVec.ofNat 32 v) else none
  | .str _ => none
  | .name _ => none
  | .bytes _ => none

/-- The names of the read registers (rules R34, R78). -/
def regNames : List (List Char × BitVec 3) :=
  [(['S','T','A','T','U','S'], 0#3), (['R','E','S','U','L','T'], 1#3), (['C','R','C','S','T','A','T','E'], 2#3),
   (['T','Y','P','E'], 3#3), (['F','L','A','G','S'], 4#3), (['L','E','N'], 5#3), (['I','D'], 6#3)]

/-- The operand of RD: an index 0 to 7, or a name (rule R78). -/
def regOperand : AsmOperand → Option (BitVec 3)
  | .num v => if v < 8 then some (BitVec.ofNat 3 v) else none
  | .name cs => regNames.lookup cs
  | .str _ => none
  | .bytes _ => none

/-- One command from its mnemonic and operands: an operand that does not fit, a missing one and an extra one are refused
(rule R78). -/
def assemble (m : List Char) : List AsmOperand → Option Instr
  | [] =>
    if m = ['N','O','P'] then some .nop
    else if m = ['I','N','I','T'] then some .init
    else if m = ['F','I','N','A','L'] then some .final
    else none
  | [o] =>
    if m = ['L','D','T','Y','P','E'] then (byteOperand 4 o).map .ldtype
    else if m = ['L','D','T','Y','P','E','T'] then (byteOperand 4 o).map .ldtypet
    else if m = ['D','A','T','A','1'] then (byteOperand 1 o).map .data1
    else if m = ['D','A','T','A','2'] then (byteOperand 2 o).map .data2
    else if m = ['D','A','T','A','3'] then (byteOperand 3 o).map .data3
    else if m = ['D','A','T','A','4'] then (byteOperand 4 o).map .data4
    else if m = ['C','H','E','C','K'] then (crcOperand o).map .check
    else if m = ['R','D'] then (regOperand o).map .rd
    else none
  | _ :: _ :: _ => none

/-- The value of a digit character, decimal or hexadecimal in either case. -/
def digitValue (c : Char) : Option Nat :=
  let n := c.toNat
  if 0x30 ≤ n ∧ n ≤ 0x39 then some (n - 0x30)
  else if 0x41 ≤ n ∧ n ≤ 0x46 then some (n - 0x41 + 10)
  else if 0x61 ≤ n ∧ n ≤ 0x66 then some (n - 0x61 + 10)
  else none

/-- The number a list of digits writes in a base, read on from a value. -/
def digitsValue (base : Nat) (acc : Nat) : List Char → Option Nat
  | [] => some acc
  | c :: cs =>
    match digitValue c with
    | some d => if d < base then digitsValue base (acc * base + d) cs else none
    | none => none

/-- A number: `0x` and hexadecimal digits, or decimal digits, at least one digit. -/
def lexNumber : List Char → Option Nat
  | '0' :: 'x' :: c :: cs => digitsValue 16 0 (c :: cs)
  | c :: cs => digitsValue 10 0 (c :: cs)
  | [] => none

/-- The double quote character. -/
def quoteChar : Char := Char.ofNat 34

/-- The characters up to a closing double quote that ends the text.
Rule R78 gives no escape and does not say whether a string may hold a double quote. Here the first double quote closes the
string, and the line is refused if text follows it. DESIGN CHOICE (log 16). Safe for the machine. -/
def lexString : List Char → Option (List Char)
  | [] => none
  | c :: cs =>
    if c = quoteChar then (if cs = [] then some [] else none)
    else (lexString cs).map (c :: ·)

/-- One operand of a line: a quoted string, a number, or a name of letters. -/
def lexOperand (cs : List Char) : Option AsmOperand :=
  if cs.head? = some quoteChar then (lexString cs.tail).map .str
  else match lexNumber cs with
    | some n => some (.num n)
    | none => if cs.all Char.isAlpha then some (.name cs) else none

/-- One line of assembly: a mnemonic, optionally followed by one operand (rule R78). -/
def assembleLine (line : List Char) : Option Instr :=
  let m := line.takeWhile (· != ' ')
  let rest := (line.dropWhile (· != ' ')).dropWhile (· == ' ')
  if rest = [] then assemble m []
  else match lexOperand rest with
    | some o => assemble m [o]
    | none => none

/-- A hexadecimal digit. -/
def hexDigit (n : Nat) : Char := if n < 10 then Char.ofNat (0x30 + n) else Char.ofNat (0x41 + (n - 10))

/-- The k low hexadecimal digits of v, most significant first. -/
def hexDigits : Nat → Nat → List Char
  | 0, _ => []
  | k + 1, v => hexDigit (v / 16 ^ k % 16) :: hexDigits k v

/-- A number written as `0x` and k hexadecimal digits. -/
def hexText (k v : Nat) : List Char := '0' :: 'x' :: hexDigits k v

/-- The text of a command: its mnemonic, and its operand if it has one (rule R78). -/
def instrText : Instr → List Char
  | .nop => ['N','O','P']
  | .init => ['I','N','I','T']
  | .ldtype t => ['L','D','T','Y','P','E',' '] ++ hexText 8 t.toNat
  | .ldtypet t => ['L','D','T','Y','P','E','T',' '] ++ hexText 8 t.toNat
  | .data1 v => ['D','A','T','A','1',' '] ++ hexText 2 v.toNat
  | .data2 v => ['D','A','T','A','2',' '] ++ hexText 4 v.toNat
  | .data3 v => ['D','A','T','A','3',' '] ++ hexText 6 v.toNat
  | .data4 v => ['D','A','T','A','4',' '] ++ hexText 8 v.toNat
  | .final => ['F','I','N','A','L']
  | .check c => ['C','H','E','C','K',' '] ++ hexText 8 c.toNat
  | .rd i => ['R','D',' ', hexDigit i.toNat]

/-- The ignored argument bits of a word that decodes to i (rule R75). -/
def ignoredArg (i : Instr) (w : CmdWord) : Word := cmdArg w &&& ~~~i.usedArg

/-- The disassembler: a nonzero ignored field is a trailing comment (rule R75), and an illegal opcode is `.illegal` and the
10 digits of the word (rule R78). -/
def disassemble (w : CmdWord) : List Char :=
  match decode w with
  | .instr i =>
    if ignoredArg i w = 0#32 then instrText i
    else instrText i ++ [' ', ';', ' '] ++ hexText 8 (ignoredArg i w).toNat
  | .illegal _ => ['.','i','l','l','e','g','a','l',' '] ++ hexText 10 w.toNat

/-- A listing line: the 10-digit word, then its text (rule R78). -/
def listing (w : CmdWord) : List Char := hexText 10 w.toNat ++ ' ' :: disassemble w

/-- DATA: DATA4 commands over consecutive groups of 4 bytes, then one DATAr over the last r bytes, if any (rule R79). -/
def pseudoData : List Byte → List Instr
  | a :: b :: c :: d :: rest => .data4 (wordOfList [a, b, c, d]) :: pseudoData rest
  | [a, b, c] => [.data3 (wordOfList [a, b, c])]
  | [a, b] => [.data2 (wordOfList [a, b])]
  | [a] => [.data1 (wordOfList [a])]
  | [] => []

/-- CHUNKCRC: INIT, LDTYPE, DATA, FINAL (rule R79). -/
def pseudoChunkCrc (t : Word) (bs : List Byte) : List Instr :=
  [.init, .ldtype t] ++ pseudoData bs ++ [.final]

/-- CHUNKCRCT: CHUNKCRC with LDTYPET in place of LDTYPE (rule R79). -/
def pseudoChunkCrcT (t : Word) (bs : List Byte) : List Instr :=
  [.init, .ldtypet t] ++ pseudoData bs ++ [.final]

/-- VERIFY: CHUNKCRC, then CHECK (rule R79). -/
def pseudoVerify (t : Word) (bs : List Byte) (c : Word) : List Instr :=
  pseudoChunkCrc t bs ++ [.check c]

/-- The byte operand of a pseudo-instruction: a quoted string or a list of byte values (rule R79).
R79 does not say whether the string may hold characters that are not ASCII: here it is refused, as R78 has it for the
commands. A number above 255 in a list is refused. DESIGN CHOICE (log 16). Safe for the machine. -/
def pseudoBytes : AsmOperand → Option (List Byte)
  | .str cs => asciiBytes cs
  | .bytes ns => byteValues ns
  | .num _ => none
  | .name _ => none

/-- A pseudo-instruction from its mnemonic and operands (rule R79). -/
def assemblePseudo (m : List Char) (ops : List AsmOperand) : Option (List Instr) :=
  match ops with
  | [b] => if m = ['D','A','T','A'] then (pseudoBytes b).map pseudoData else none
  | [t, b] =>
    match byteOperand 4 t, pseudoBytes b with
    | some tw, some bs =>
      if m = ['C','H','U','N','K','C','R','C'] then some (pseudoChunkCrc tw bs)
      else if m = ['C','H','U','N','K','C','R','C','T'] then some (pseudoChunkCrcT tw bs)
      else none
    | _, _ => none
  | [t, b, c] =>
    match byteOperand 4 t, pseudoBytes b, crcOperand c with
    | some tw, some bs, some cw =>
      if m = ['V','E','R','I','F','Y'] then some (pseudoVerify tw bs cw) else none
    | _, _, _ => none
  | _ => none

end Sys2Proof.Machine
end

