-- ==== Sys2Proof/Machine/Framing.lean ====
section
/-! DEFINITION. The host's framing duties: which commands rule R56 has the host issue, and the wire bytes of rule R53. This is host software (rule R5), written here for statements about whole chunks. It is no part of the step (log 18). -/

namespace Sys2Proof.Machine

/-- The wire bytes of a chunk: `bytes_be(LEN, 4) ++ type bytes ++ data ++ bytes_be(RESULT, 4)` (rules R53, R56). -/
def serialise (len t result : Word) (data : List Byte) : List Byte :=
  bytesBe len 4 ++ typeBytes t ++ data ++ bytesBe result 4

/-- The commands a host issues to check a chunk received in a buffer, or none where the host fails with `Truncated` itself
(rule R56, steps 1 to 6). R56 leaves the split of the payload to the host: this program takes that of rule R79.
DESIGN CHOICE (log 18). Safe for the machine. -/
def checkProgram (buf : List Byte) : Option (List Instr) :=
  let n := (wordOfList (buf.take 4)).toNat
  if buf.length < 12 then none
  else if buf.length < 8 + n + 4 then none
  else some (pseudoVerify (wordOfList ((buf.drop 4).take 4)) ((buf.drop 8).take n)
    (wordOfList ((buf.drop (8 + n)).take 4)))

/-- The commands a host issues to build a chunk, up to FINAL (rule R56, steps 1 to 3).
R56 lets the host load the type with LDTYPE or LDTYPET and split the payload as it likes: this program takes the raw load and
the split of rule R79. The reads of step 4, `RD 5` and `RD 1`, are left out: they change no state, and `serialise` takes LEN
and RESULT as values. DESIGN CHOICE (log 18). Safe for the machine. -/
def buildProgram (t : Word) (data : List Byte) : List Instr := pseudoChunkCrc t data

/-- The host accepts a chunk exactly when the CHECK response shows ERR = 0 and MATCH = 1, STATUS = 0x07 (rules R56, R146). -/
def accepts (response : Word) : Bool := response == 0x00000007#32

end Sys2Proof.Machine
end

