-- ==== Sys2Proof/Safety.lean ====
section
/-! DEFINITION. The words the statements are written in: runs over a host's inputs (rule R60), the elements of the state (rule R36), the commands each phase accepts (rules R25, R203), and the invariant of the block (rules R25, R144, R201, R241, R245). -/

namespace Sys2Proof.Machine

/-- The host's inputs that issue a list of commands. -/
def commands (is : List Instr) : List HostInput := is.map fun i => .command (encode i)

/-- From s, with exactly these inputs still to come, the block gets to t: one step for each input (rules R52, R60). -/
def runs (xs : List HostInput) (s t : State) : Prop :=
  Sys2Proof.core.run xs.length ({ s with inputs := xs } : State) = .next t

/-- All seven elements of the block are equal in two states (rules R20, R36). -/
def sameElements (s t : State) : Prop :=
  s.crc = t.crc ∧ s.result = t.result ∧ s.typeCode = t.typeCode ∧ s.phase = t.phase ∧ s.len = t.len ∧
    s.matchFlag = t.matchFlag ∧ s.err = t.err

/-- The payload bytes a DATAn carries, in stream order (rule R74). -/
def payloadOf : Instr → Option (List Byte)
  | .data1 v => some (bytesBe v 1)
  | .data2 v => some (bytesBe v 2)
  | .data3 v => some (bytesBe v 3)
  | .data4 v => some (bytesBe v 4)
  | .nop => none
  | .init => none
  | .ldtype _ => none
  | .ldtypet _ => none
  | .final => none
  | .check _ => none
  | .rd _ => none

/-- The payload bytes a list of commands carries, or none if one of them is no DATAn. -/
def payloadBytes : List Instr → Option (List Byte)
  | [] => some []
  | i :: is =>
    match payloadOf i, payloadBytes is with
    | some a, some b => some (a ++ b)
    | _, _ => none

/-- The commands a phase accepts: the last column of the table of rule R25. -/
def Phase.accepts : Phase → Instr → Bool
  | _, .init => true
  | _, .nop => true
  | _, .rd _ => true
  | p, .ldtype _ => p == .type
  | p, .ldtypet _ => p == .type
  | p, .data1 _ => p == .data
  | p, .data2 _ => p == .data
  | p, .data3 _ => p == .data
  | p, .data4 _ => p == .data
  | p, .final => p == .data
  | p, .check _ => p == .done

/-- The gated commands: every illegal opcode, and all but NOP, RD and INIT (rule R203). -/
def isGated : Decoded → Bool
  | .illegal _ => true
  | .instr .init => false
  | .instr .nop => false
  | .instr (.rd _) => false
  | .instr (.ldtype _) => true
  | .instr (.ldtypet _) => true
  | .instr (.data1 _) => true
  | .instr (.data2 _) => true
  | .instr (.data3 _) => true
  | .instr (.data4 _) => true
  | .instr .final => true
  | .instr (.check _) => true

/-- The commands whose operand is n bytes, a number or a string: mnemonic, n, and the command of an operand (rule R78). -/
def byteCommands : List (List Char × Nat × (Word → Instr)) :=
  [(['L','D','T','Y','P','E'], 4, .ldtype), (['L','D','T','Y','P','E','T'], 4, .ldtypet),
   (['D','A','T','A','1'], 1, .data1), (['D','A','T','A','2'], 2, .data2),
   (['D','A','T','A','3'], 3, .data3), (['D','A','T','A','4'], 4, .data4)]

/-- The host inputs that clear an error: `rst` and INIT (rule R205). -/
def clearsErr : HostInput → Bool
  | .rst => true
  | .takeResponse => false
  | .command w => decode w == .instr .init

/-- What holds of the block in every state a run from reset reaches. -/
structure State.Inv (s : State) : Prop where
  /-- Codes 6 to 15 are never produced (rule R201). -/
  errCode : s.err.toNat ≤ 5
  /-- RESULT is 0 before FINAL (rule R241). -/
  resultBefore : s.phase ≠ .done → s.result = 0#32
  /-- After FINAL, CRC is the complement of RESULT (rule R144). -/
  resultAfter : s.phase = .done → s.crc = ~~~s.result
  /-- No type is loaded in IDLE and TYPE (rules R24, R245), and nothing is absorbed (rule R51). -/
  notLoaded : s.phase = .idle ∨ s.phase = .type →
    s.typeCode = 0#32 ∧ s.crc = 0xFFFFFFFF#32 ∧ s.len = 0#32
  /-- MATCH is 1 only after FINAL (rules R27, R145). -/
  matchAfter : s.matchFlag = true → s.phase = .done
  /-- A recorded E_CHECKSUM stands with MATCH = 0, in DONE (rule R145). -/
  checksumErr : s.err = 2#4 → s.phase = .done ∧ s.matchFlag = false
  /-- A recorded E_INVALID_TYPE stands in TYPE (rules R102, R103). -/
  invalidTypeErr : s.err = 1#4 → s.phase = .type
  /-- A recorded E_LENGTH_OVF stands in DATA, within 4 bytes of the largest length (rule R142). -/
  lengthErr : s.err = 4#4 → s.phase = .data ∧ 0xFFFFFFFF < s.len.toNat + 4

end Sys2Proof.Machine
end

