-- ==== Sys2Proof/Certificates/Slice0/Obligations.lean ====
section
/-! DEFINITION. The statements for the provers, from the numbered rules of `spec/`. -/

open Sys2Proof Sys2Proof.Machine

/-! ### Reset and initialisation -/

/-- Rule R231: the reset value of every element, of the derived words, and of ID.
The response port and the pending inputs are the model's own fields and are left out (log 1, log 3). -/
def Obligations.ResetLeavesStatedValues : Prop :=
  State.reset.crc = 0xFFFFFFFF#32 ∧ State.reset.result = 0x00000000#32 ∧ State.reset.typeCode = 0x00000000#32 ∧
    State.reset.phase = .idle ∧ State.reset.phase.code = 0#2 ∧ State.reset.len = 0x00000000#32 ∧
    State.reset.matchFlag = false ∧ State.reset.err = 0#4 ∧ ErrCode.none.code = 0#4 ∧
    State.reset.status = 0x00000000#32 ∧ State.reset.flags = 0x00000017#32 ∧
    State.reset.readReg 6#3 = 0x50435243#32

/-- Rules R230, R231, R233: from any state at all, the state before the first reset among them, a `rst` step sets every
element to its reset value and leaves no response. That the host's later inputs stay is the model's choice (log 1). -/
def Obligations.RstStepResetsAnyState : Prop :=
  ∀ (s : State) (rest : List HostInput),
    step { s with inputs := .rst :: rest } = .next { State.reset with inputs := rest } ∧
    step (State.powerOn (.rst :: rest)) = .next { State.reset with inputs := rest }

/-- Rules R230, R244, I10: whatever inputs came before, a run that ends with `rst` ends in the state after reset, so no
command whose response `rst` dropped leaves a trace. -/
def Obligations.RstDropsWhateverCameBefore : Prop :=
  ∀ (s t : State) (xs : List HostInput), runs (xs ++ [.rst]) s t → t = State.reset

/-- Rule R234: after INIT the state equals the reset state in every element except PHASE, which is TYPE. -/
def Obligations.InitLeavesResetStateButPhase : Prop :=
  ∀ s : State, ∃ t, exec .init s = .next t ∧
    sameElements t { State.reset with phase := .type } ∧ State.reset.phase = .idle

/-- Rule R135: INIT, whatever its argument, whatever ERR and PHASE are. -/
def Obligations.InitStartsComputation : Prop :=
  (∀ arg, decode (cmdWord 0x01#8 arg) = .instr .init) ∧
  ∀ s : State, exec .init s = .next
    { s with crc := 0xFFFFFFFF#32, result := 0#32, typeCode := 0#32, len := 0#32, matchFlag := false, err := 0#4,
             phase := .type, rsp := some 0x00000001#32 } ∧
    ∀ t, exec .init s = .next t → t.flags = 0x00000017#32

/-! ### The words read from the state -/

/-- Rule R30: the fields of STATUS, its reserved bits among them. -/
def Obligations.StatusLayout : Prop :=
  ∀ s : State,
    s.status.extractLsb' 0 2 = s.phase.code ∧ s.status.getLsbD 2 = s.matchFlag ∧ s.status.getLsbD 3 = false ∧
    s.status.extractLsb' 4 4 = s.err ∧ s.status.extractLsb' 8 24 = 0#24 ∧
    s.status = (s.err ++ 0#1 ++ BitVec.ofBool s.matchFlag ++ s.phase.code : BitVec 8).setWidth 32 ∧
    State.reset.status = 0x00000000#32

/-- Rules R31, R106 to R110, R112: each bit of FLAGS as a bit of TYPE, and the reserved bits. -/
def Obligations.FlagsFromTypeBits : Prop :=
  ∀ s : State,
    s.flags.getLsbD 0 = !s.typeCode.getLsbD 29 ∧ s.flags.getLsbD 1 = !s.typeCode.getLsbD 21 ∧
    s.flags.getLsbD 2 = !s.typeCode.getLsbD 13 ∧ s.flags.getLsbD 3 = s.typeCode.getLsbD 5 ∧
    s.flags.getLsbD 4 = s.flags.getLsbD 2 ∧
    s.flags.getLsbD 5 = (alpha (s.typeCode.extractLsb' 24 8) && alpha (s.typeCode.extractLsb' 16 8) &&
      alpha (s.typeCode.extractLsb' 8 8) && alpha (s.typeCode.extractLsb' 0 8)) ∧
    s.flags.extractLsb' 6 26 = 0#26

/-- Rule R11: the letters are exactly the two ASCII ranges. -/
def Obligations.AlphaIsTheLetterRanges : Prop :=
  ∀ b : Byte, alpha b = true ↔ (0x41 ≤ b.toNat ∧ b.toNat ≤ 0x5A) ∨ (0x61 ≤ b.toNat ∧ b.toNat ≤ 0x7A)

/-- Rule R111: VALID depends on TYPE[13] alone; a type that is not alphabetic can have VALID = 1. -/
def Obligations.ValidDependsOnBitThirteenAlone : Prop :=
  (∀ t u : Word, t.getLsbD 13 = u.getLsbD 13 → valid t = valid u) ∧
  (∀ t u : Word, t.getLsbD 13 ≠ u.getLsbD 13 → valid t ≠ valid u) ∧
  (∀ s : State, s.flags.getLsbD 4 = valid s.typeCode) ∧
  valid 0x00000000#32 = true ∧ allAlpha 0x00000000#32 = false ∧
  valid 0x40404040#32 = true ∧ allAlpha 0x40404040#32 = false

/-- Rule R33: `status_out` and `flags_out` show the current state, at all times. -/
def Obligations.StatusAndFlagsPorts : Prop :=
  ∀ s : State, s.statusOut.setWidth 32 = s.status ∧ s.flagsOut.setWidth 32 = s.flags

/-- Rule R37: the block has no hidden state. Two states that read the same through x[0], x[1], x[2], x[3] and x[5] agree in
every element. -/
def Obligations.ReadMapShowsAllState : Prop :=
  ∀ s t : State, s.readReg 0#3 = t.readReg 0#3 → s.readReg 1#3 = t.readReg 1#3 → s.readReg 2#3 = t.readReg 2#3 →
    s.readReg 3#3 = t.readReg 3#3 → s.readReg 5#3 = t.readReg 5#3 → sameElements s t

/-! ### Control commands -/

/-- Rule R170: NOP, whatever its argument, ERR and PHASE. -/
def Obligations.NopAnswersStatus : Prop :=
  (∀ arg, decode (cmdWord 0x00#8 arg) = .instr .nop) ∧
  ∀ s : State, exec .nop s = .next { s with rsp := some s.status }

/-- Rules R34, R171, R172: RD answers the read register of its index and changes no state, whatever ERR and PHASE are. -/
def Obligations.RdReadsTheMap : Prop :=
  (∀ arg, decode (cmdWord 0x20#8 arg) = .instr (.rd (arg.extractLsb' 0 3))) ∧
  ∀ s : State,
    exec (.rd 0#3) s = .next { s with rsp := some s.status } ∧
    exec (.rd 1#3) s = .next { s with rsp := some s.result } ∧
    exec (.rd 2#3) s = .next { s with rsp := some s.crc } ∧
    exec (.rd 3#3) s = .next { s with rsp := some s.typeCode } ∧
    exec (.rd 4#3) s = .next { s with rsp := some s.flags } ∧
    exec (.rd 5#3) s = .next { s with rsp := some s.len } ∧
    exec (.rd 6#3) s = .next { s with rsp := some 0x50435243#32 } ∧
    exec (.rd 7#3) s = .next { s with rsp := some 0x00000000#32 }

/-- Rules R76, R174: every word whose `op` is not in the opcode map. -/
def Obligations.IllegalOpcodeRaises : Prop :=
  ∀ (w : CmdWord) (op : BitVec 8) (s : State), decode w = .illegal op →
    (s.err = 0#4 → ∃ t, execDecoded (decode w) s = .next t ∧
      t = { s with err := 5#4, rsp := some t.status }) ∧
    (s.err ≠ 0#4 → execDecoded (decode w) s = .next { s with rsp := some s.status })

/-! ### Type-code loads -/

/-- Rule R100: LDTYPE loads any 4 bytes, whatever they are (rule R101). The first clause is where it completes; the others
are the phase error and the gate. -/
def Obligations.LdtypeLoadsRawType : Prop :=
  ∀ (ty : Word) (s : State),
    decode (cmdWord 0x02#8 ty) = .instr (.ldtype ty) ∧
    (s.err = 0#4 → s.phase = .type → ∃ t, exec (.ldtype ty) s = .next t ∧
      t = { s with typeCode := ty,
                   crc := crcBytes s.crc [ty.extractLsb' 24 8, ty.extractLsb' 16 8, ty.extractLsb' 8 8, ty.extractLsb' 0 8],
                   phase := .data, rsp := some t.status }) ∧
    (s.err = 0#4 → s.phase ≠ .type → ∃ t, exec (.ldtype ty) s = .next t ∧
      t = { s with err := 3#4, rsp := some t.status }) ∧
    (s.err ≠ 0#4 → exec (.ldtype ty) s = .next { s with rsp := some s.status })

/-- Rule R102: LDTYPET loads 4 ASCII letters. The second clause is where it completes. The others are the phase error, the
letter error and the gate: a rejected load changes nothing but ERR (rule R103), and the phase is checked before the letters
(rule R206). -/
def Obligations.LdtypetLoadsLetters : Prop :=
  ∀ (ty : Word) (s : State),
    decode (cmdWord 0x03#8 ty) = .instr (.ldtypet ty) ∧
    (s.err = 0#4 → s.phase = .type →
      alpha (ty.extractLsb' 24 8) = true → alpha (ty.extractLsb' 16 8) = true →
      alpha (ty.extractLsb' 8 8) = true → alpha (ty.extractLsb' 0 8) = true →
      ∃ t, exec (.ldtypet ty) s = .next t ∧ t.flags.getLsbD 5 = true ∧
        t = { s with typeCode := ty,
                     crc := crcBytes s.crc [ty.extractLsb' 24 8, ty.extractLsb' 16 8, ty.extractLsb' 8 8, ty.extractLsb' 0 8],
                     phase := .data, rsp := some t.status }) ∧
    (s.err = 0#4 → s.phase ≠ .type → ∃ t, exec (.ldtypet ty) s = .next t ∧
      t = { s with err := 3#4, rsp := some t.status }) ∧
    (s.err = 0#4 → s.phase = .type →
      alpha (ty.extractLsb' 24 8) = false ∨ alpha (ty.extractLsb' 16 8) = false ∨
        alpha (ty.extractLsb' 8 8) = false ∨ alpha (ty.extractLsb' 0 8) = false →
      ∃ t, exec (.ldtypet ty) s = .next t ∧ t = { s with err := 1#4, rsp := some t.status }) ∧
    (s.err ≠ 0#4 → exec (.ldtypet ty) s = .next { s with rsp := some s.status })

/-! ### Payload, FINAL and CHECK -/

/-- Rule R136: DATA1 absorbs `arg[7:0]` and counts one byte. The second clause is where it completes. The others
are the phase error, the length error and the gate. -/
def Obligations.DataOneAbsorbsOneByte : Prop :=
  ∀ (arg : Word) (s : State),
    decode (cmdWord 0x08#8 arg) = .instr (.data1 (arg &&& 0x000000FF#32)) ∧
    (s.err = 0#4 → s.phase = .data → s.len.toNat ≤ 0xFFFFFFFE → exec (.data1 arg) s = .next
      { s with crc := crcByte s.crc (arg.extractLsb' 0 8),
               len := s.len + 1#32, rsp := some s.status }) ∧
    (s.err = 0#4 → s.phase ≠ .data → ∃ t, exec (.data1 arg) s = .next t ∧
      t = { s with err := 3#4, rsp := some t.status }) ∧
    (s.err = 0#4 → s.phase = .data → 0xFFFFFFFE < s.len.toNat → ∃ t, exec (.data1 arg) s = .next t ∧
      t = { s with err := 4#4, rsp := some t.status }) ∧
    (s.err ≠ 0#4 → exec (.data1 arg) s = .next { s with rsp := some s.status })

/-- Rule R137: DATA2 absorbs `arg[15:8]`, then `arg[7:0]`, and counts two bytes. The second clause is
where it completes. The others are the phase error, the length error and the gate. -/
def Obligations.DataTwoAbsorbsTwoBytes : Prop :=
  ∀ (arg : Word) (s : State),
    decode (cmdWord 0x09#8 arg) = .instr (.data2 (arg &&& 0x0000FFFF#32)) ∧
    (s.err = 0#4 → s.phase = .data → s.len.toNat ≤ 0xFFFFFFFD → exec (.data2 arg) s = .next
      { s with crc := crcByte (crcByte s.crc (arg.extractLsb' 8 8)) (arg.extractLsb' 0 8),
               len := s.len + 2#32, rsp := some s.status }) ∧
    (s.err = 0#4 → s.phase ≠ .data → ∃ t, exec (.data2 arg) s = .next t ∧
      t = { s with err := 3#4, rsp := some t.status }) ∧
    (s.err = 0#4 → s.phase = .data → 0xFFFFFFFD < s.len.toNat → ∃ t, exec (.data2 arg) s = .next t ∧
      t = { s with err := 4#4, rsp := some t.status }) ∧
    (s.err ≠ 0#4 → exec (.data2 arg) s = .next { s with rsp := some s.status })

/-- Rule R138: DATA3 absorbs `arg[23:16]`, `arg[15:8]` and `arg[7:0]`, and counts three bytes. The second clause is
where it completes. The others are the phase error, the length error and the gate. -/
def Obligations.DataThreeAbsorbsThreeBytes : Prop :=
  ∀ (arg : Word) (s : State),
    decode (cmdWord 0x0A#8 arg) = .instr (.data3 (arg &&& 0x00FFFFFF#32)) ∧
    (s.err = 0#4 → s.phase = .data → s.len.toNat ≤ 0xFFFFFFFC → exec (.data3 arg) s = .next
      { s with crc := crcByte (crcByte (crcByte s.crc (arg.extractLsb' 16 8)) (arg.extractLsb' 8 8)) (arg.extractLsb' 0 8),
               len := s.len + 3#32, rsp := some s.status }) ∧
    (s.err = 0#4 → s.phase ≠ .data → ∃ t, exec (.data3 arg) s = .next t ∧
      t = { s with err := 3#4, rsp := some t.status }) ∧
    (s.err = 0#4 → s.phase = .data → 0xFFFFFFFC < s.len.toNat → ∃ t, exec (.data3 arg) s = .next t ∧
      t = { s with err := 4#4, rsp := some t.status }) ∧
    (s.err ≠ 0#4 → exec (.data3 arg) s = .next { s with rsp := some s.status })

/-- Rule R139: DATA4 absorbs `arg[31:24]` down to `arg[7:0]`, and counts four bytes. The second clause is
where it completes. The others are the phase error, the length error and the gate. -/
def Obligations.DataFourAbsorbsFourBytes : Prop :=
  ∀ (arg : Word) (s : State),
    decode (cmdWord 0x0B#8 arg) = .instr (.data4 arg) ∧
    (s.err = 0#4 → s.phase = .data → s.len.toNat ≤ 0xFFFFFFFB → exec (.data4 arg) s = .next
      { s with crc := crcByte (crcByte (crcByte (crcByte s.crc (arg.extractLsb' 24 8)) (arg.extractLsb' 16 8))
                        (arg.extractLsb' 8 8)) (arg.extractLsb' 0 8),
               len := s.len + 4#32, rsp := some s.status }) ∧
    (s.err = 0#4 → s.phase ≠ .data → ∃ t, exec (.data4 arg) s = .next t ∧
      t = { s with err := 3#4, rsp := some t.status }) ∧
    (s.err = 0#4 → s.phase = .data → 0xFFFFFFFB < s.len.toNat → ∃ t, exec (.data4 arg) s = .next t ∧
      t = { s with err := 4#4, rsp := some t.status }) ∧
    (s.err ≠ 0#4 → exec (.data4 arg) s = .next { s with rsp := some s.status })

/-- Rules R73, R140, R142: the common behaviour of DATA1 to DATA4, on the bytes their argument carries. The count of bytes is
in `op[1:0]`. The length is compared without wrap, a command that would pass 0xFFFFFFFF absorbs nothing, and the phase is
checked before the length. -/
def Obligations.DataCommonBehaviour : Prop :=
  ∀ (i : Instr) (bs : List Byte) (s : State), payloadOf i = some bs →
    (bs.length = (i.opcode.extractLsb' 0 2).toNat + 1 ∧ i.opcode.extractLsb' 2 6 = 0b000010#6 ∧
      bs = bytesBe i.argument bs.length) ∧
    (s.err = 0#4 → s.phase = .data → s.len.toNat + bs.length ≤ 0xFFFFFFFF → ∃ t, exec i s = .next t ∧
      t.len.toNat = s.len.toNat + bs.length ∧
      t = { s with crc := crcBytes s.crc bs, len := t.len, rsp := some t.status }) ∧
    (s.err = 0#4 → s.phase = .data → 0xFFFFFFFF < s.len.toNat + bs.length →
      ∃ t, exec i s = .next t ∧ t = { s with err := 4#4, rsp := some t.status }) ∧
    (s.err = 0#4 → s.phase ≠ .data → ∃ t, exec i s = .next t ∧ t = { s with err := 3#4, rsp := some t.status }) ∧
    (s.err ≠ 0#4 → exec i s = .next { s with rsp := some s.status })

/-- Rule R143: FINAL captures the checksum, a payload of no bytes included (rule R141), and leaves CRC unchanged (rule R144).
The first clause is where it completes. -/
def Obligations.FinalCapturesChecksum : Prop :=
  (∀ arg, decode (cmdWord 0x10#8 arg) = .instr .final) ∧
  ∀ s : State,
    (s.err = 0#4 → s.phase = .data → ∃ t, exec .final s = .next t ∧
      t = { s with result := s.crc ^^^ 0xFFFFFFFF#32, phase := .done, rsp := some t.status }) ∧
    (s.err = 0#4 → s.phase ≠ .data → ∃ t, exec .final s = .next t ∧ t = { s with err := 3#4, rsp := some t.status }) ∧
    (s.err ≠ 0#4 → exec .final s = .next { s with rsp := some s.status })

/-- Rule R145: CHECK compares all 32 bits of RESULT. The first clause is where it completes with a match; the second is the
mismatch, which writes MATCH and ERR. -/
def Obligations.CheckComparesResult : Prop :=
  ∀ (c : Word) (s : State),
    decode (cmdWord 0x11#8 c) = .instr (.check c) ∧
    (s.err = 0#4 → s.phase = .done → s.result = c →
      exec (.check c) s = .next { s with matchFlag := true, rsp := some 0x00000007#32 }) ∧
    (s.err = 0#4 → s.phase = .done → s.result ≠ c →
      exec (.check c) s = .next { s with matchFlag := false, err := 2#4, rsp := some 0x00000023#32 }) ∧
    (s.err = 0#4 → s.phase ≠ .done → ∃ t, exec (.check c) s = .next t ∧ t = { s with err := 3#4, rsp := some t.status }) ∧
    (s.err ≠ 0#4 → exec (.check c) s = .next { s with rsp := some s.status })

/-! ### The CRC arithmetic -/

/-- Rule R148: the table form computes the one-byte step, for every register and byte. -/
def Obligations.TableFormEqualsByteStep : Prop :=
  (∀ (c : Word) (b : Byte), crcByte c b = crcByteByTable c b) ∧
  (∀ (c : Word) (b : Byte), crcByte c b = (c >>> 8) ^^^ crcByte 0#32 ((c ^^^ b.setWidth 32).setWidth 8)) ∧
  crcTable 0x01#8 = 0x77073096#32 ∧ crcTable 0x80#8 = 0xEDB88320#32

/-- Rule R130: the shift loop, on the register's bits. One shift moves every bit down by one, and a 1 shifted out adds the
reversed polynomial 0xEDB88320; the reversed polynomial is the bit reversal of 0x04C11DB7. -/
def Obligations.ShiftDividesByThePolynomial : Prop :=
  (∀ (c : Word) (k : Nat), (crcShift c).getLsbD k =
    Bool.xor (c.getLsbD (k + 1)) (c.getLsbD 0 && (0x04C11DB7#32).reverse.getLsbD k)) ∧
  (0x04C11DB7#32).reverse = 0xEDB88320#32 ∧
  (∀ (c : Word) (b : Byte), crcByte c b =
    crcShift (crcShift (crcShift (crcShift (crcShift (crcShift (crcShift (crcShift (c ^^^ b.setWidth 32)))))))))

/-- Rule R132: the checksum of every message, the named algorithm's polynomial (the register uses it bit-reversed), and its
check value, the checksum of the ASCII bytes "123456789". -/
def Obligations.ChecksumOfMessage : Prop :=
  (∀ m : List Byte, crc32 m = crcBytes 0xFFFFFFFF#32 m ^^^ 0xFFFFFFFF#32) ∧
  crcPoly = (0x04C11DB7#32).reverse ∧
  crc32 [0x31#8, 0x32#8, 0x33#8, 0x34#8, 0x35#8, 0x36#8, 0x37#8, 0x38#8, 0x39#8] = 0xCBF43926#32

/-- Rule R147: a change to exactly one bit of a message changes its checksum, for every message, every byte of it and every bit
of that byte. So a VERIFY sequence over type bytes and payload with one bit changed, against the original checksum, ends with
E_CHECKSUM. -/
def Obligations.SingleBitChangeIsDetected : Prop :=
  (∀ (before after : List Byte) (b : Byte) (k : Fin 8),
    crc32 (before ++ (b ^^^ (1#8 <<< k.val)) :: after) ≠ crc32 (before ++ b :: after)) ∧
  (∀ (s : State) (ty ty' : Word) (d d' before after : List Byte) (b : Byte) (k : Fin 8),
    bytesBe ty 4 ++ d = before ++ b :: after →
    bytesBe ty' 4 ++ d' = before ++ (b ^^^ (1#8 <<< k.val)) :: after → d.length ≤ 0xFFFFFFFF →
    ∃ t, runs (commands (pseudoVerify ty' d' (crc32 (bytesBe ty 4 ++ d)))) s t ∧ t.err = 2#4 ∧ t.matchFlag = false)

/-! ### Encoding -/

/-- Rules R70, R72, R80: decoding the word of a well-formed command gives the command back, every operand at every value. -/
def Obligations.DecodeOfEncode : Prop :=
  ∀ i : Instr, i.wellFormed = true → decode (encode i) = .instr i

/-- Rules R72, R75, R80: what decodes to a command is the command's opcode with, in the bits the command uses, its argument;
the command is well-formed, and its word is the same word with the ignored bits written as 0. -/
def Obligations.EncodeOfDecode : Prop :=
  ∀ (w : CmdWord) (i : Instr), decode w = .instr i →
    i.wellFormed = true ∧ encode i = cmdWord (cmdOp w) (cmdArg w &&& i.usedArg)

/-- Rule R76: the illegal opcodes are exactly the listed ranges, whatever the argument, and they are 245 values. -/
def Obligations.IllegalOpcodesAreTheListedRanges : Prop :=
  (∀ (op : BitVec 8) (arg : Word), decode (cmdWord op arg) = .illegal op ↔
    (0x04 ≤ op.toNat ∧ op.toNat ≤ 0x07) ∨ (0x0C ≤ op.toNat ∧ op.toNat ≤ 0x0F) ∨
      (0x12 ≤ op.toNat ∧ op.toNat ≤ 0x1F) ∨ (0x21 ≤ op.toNat ∧ op.toNat ≤ 0xFF)) ∧
  ((List.range 256).filter fun n =>
    decode (cmdWord (BitVec.ofNat 8 n) 0#32) == .illegal (BitVec.ofNat 8 n)).length = 245

/-- Rule R75: the `arg` bits a command does not use have no effect on any state or on the response. -/
def Obligations.IgnoredArgumentBitsHaveNoEffect : Prop :=
  ∀ (w v : CmdWord) (i : Instr) (s : State) (rest : List HostInput), decode w = .instr i → cmdOp v = cmdOp w →
    cmdArg v &&& i.usedArg = cmdArg w &&& i.usedArg →
    step { s with inputs := .command v :: rest } = step { s with inputs := .command w :: rest }

/-- Rules R70, R72: words written out from the spec's encodings decode to the commands they stand for. -/
def Obligations.WordsOfTheSpecDecode : Prop :=
  decode 0x0100000000#40 = .instr .init ∧ decode 0x0252755374#40 = .instr (.ldtype 0x52755374#32) ∧
    decode 0x0354455354#40 = .instr (.ldtypet 0x54455354#32) ∧ decode 0x08FFFFFF35#40 = .instr (.data1 0x35#32) ∧
    decode 0x0900006521#40 = .instr (.data2 0x6521#32) ∧ decode 0x1000000000#40 = .instr .final ∧
    decode 0x11ABD1D84E#40 = .instr (.check 2882656334#32) ∧ decode 0x20FFFFFFFE#40 = .instr (.rd 6#3) ∧
    decode 0xFF00000000#40 = .illegal 0xFF#8

/-! ### The step -/

/-- A step on a command word is the meaning of what it decodes to, on the state whose pending response has been taken and
from whose inputs the word is gone (rules R52, R244). That a step does nothing with no input is the model's choice (log 2). -/
def Obligations.StepRunsTheDecodedCommand : Prop :=
  ∀ (s : State) (w : CmdWord) (rest : List HostInput),
    (∀ i, decode w = .instr i →
      step { s with inputs := .command w :: rest } = exec i { s with inputs := rest, rsp := none }) ∧
    (∀ op, decode w = .illegal op →
      step { s with inputs := .command w :: rest } = execIllegal op { s with inputs := rest, rsp := none }) ∧
    step { s with inputs := [] } = .next { s with inputs := [] }

/-- Rules R33, R35, R58: every command, legal or not, in every state, is answered: there is a next state, which holds the
response until the host takes it. The response is the read register for RD, and STATUS after the command for every other
command. While `rst` is not 1 it is available on the port, and no new command can be accepted before it is taken.
That the host's later inputs stay is the model's choice (log 1), and so is the response as state and the handshake read
through it (log 3, DEDUCED). -/
def Obligations.EveryCommandIsAnswered : Prop :=
  ∀ (s : State) (w : CmdWord) (rest : List HostInput), ∃ t,
    step { s with inputs := .command w :: rest } = .next t ∧ t.inputs = rest ∧
    (∀ i, decode w = .instr (.rd i) → t.rsp = some (s.readReg i)) ∧
    ((∀ i, decode w ≠ .instr (.rd i)) → t.rsp = some t.status) ∧
    (t.rstPort = false → t.rspValid = true ∧ t.rspData = t.rsp ∧ t.cmdReady = false)

/-- Rules R33, R230: after the response is taken the block can accept a command and has no response, and no element changes;
while `rst` is 1 neither port is 1. The host's inputs as data are log 1's and the response as state log 3's (DEDUCED); that
`rsp_data` has no value while there is no response is the model's choice (log 15): the spec leaves that value open. -/
def Obligations.HandshakePorts : Prop :=
  ∀ (s : State) (rest : List HostInput),
    (∃ t, step { s with inputs := .takeResponse :: rest } = .next t ∧ sameElements t s ∧ t.inputs = rest ∧
      t.rspData = none ∧ t.rspValid = false ∧ (t.rstPort = false → t.cmdReady = true)) ∧
    (({ s with inputs := .rst :: rest } : State).rspValid = false ∧
      ({ s with inputs := .rst :: rest } : State).cmdReady = false)

/-- Rule R60: commands take effect in the order the host issues them: a run over two lists of inputs is a run over the first,
then a run over the second from the state the first left. -/
def Obligations.RunsCompose : Prop :=
  ∀ (xs ys : List HostInput) (s u : State), runs (xs ++ ys) s u ↔ ∃ t, runs xs s t ∧ runs ys t u

/-! ### Errors -/

/-- Rule R203: while ERR is not 0, every gated command is ignored and answers STATUS. The commands that are not gated are
NOP, RD and INIT. They always execute, whatever ERR is: NOP answers STATUS, RD its read register, and INIT ends in the same
state from every ERR, the cleared one with PHASE = TYPE and ERR = 0. -/
def Obligations.GateIgnoresGatedCommands : Prop :=
  (∀ (d : Decoded) (s : State), s.err ≠ 0#4 → isGated d = true →
    execDecoded d s = .next { s with rsp := some s.status }) ∧
  (∀ d : Decoded, isGated d = false ↔ d = .instr .nop ∨ (∃ i, d = .instr (.rd i)) ∨ d = .instr .init) ∧
  (∀ s : State, execDecoded (.instr .nop) s = .next { s with rsp := some s.status }) ∧
  (∀ (i : BitVec 3) (s : State), execDecoded (.instr (.rd i)) s = .next { s with rsp := some (s.readReg i) }) ∧
  (∀ (s : State) (e : BitVec 4), ∃ t, execDecoded (.instr .init) s = .next t ∧
    execDecoded (.instr .init) { s with err := e } = .next t ∧
    t.err = 0#4 ∧ sameElements t { State.reset with phase := .type } ∧ t.rsp = some t.status)

/-- Rules R25, R206: a command the phase does not accept raises E_SEQUENCE, whatever its operand and LEN are, and a legal one
the phase accepts never does. -/
def Obligations.PhaseDecidesSequenceError : Prop :=
  ∀ (i : Instr) (s : State), s.err = 0#4 →
    (s.phase.accepts i = false → ∃ t, exec i s = .next t ∧ t = { s with err := 3#4, rsp := some t.status }) ∧
    (s.phase.accepts i = true → ∃ t, exec i s = .next t ∧ t.err ≠ 3#4)

/-- Rules R25, R51: PHASE moves only by INIT to TYPE, by a successful type load from TYPE to DATA, and by a successful FINAL
from DATA to DONE. -/
def Obligations.PhaseMovesInOrder : Prop :=
  ∀ (d : Decoded) (s t : State), execDecoded d s = .next t →
    t.phase = s.phase ∨ (d = .instr .init ∧ t.phase = .type) ∨
    ((∃ ty, d = .instr (.ldtype ty) ∨ d = .instr (.ldtypet ty)) ∧ s.phase = .type ∧ t.phase = .data ∧ t.err = 0#4) ∨
    (d = .instr .final ∧ s.phase = .data ∧ t.phase = .done ∧ t.err = 0#4)

/-- Rules R9, R38, R204: a command that raises changes ERR, from 0, and nothing else of the state, but for a failing CHECK,
which also clears MATCH. -/
def Obligations.RaisingWritesOnlyErr : Prop :=
  ∀ (d : Decoded) (s t : State), execDecoded d s = .next t → t.err ≠ s.err → d ≠ .instr .init →
    s.err = 0#4 ∧
    ((∃ c, d = .instr (.check c) ∧ t = { s with matchFlag := false, err := 2#4, rsp := some t.status }) ∨
      (t.err ≠ 2#4 ∧ t = { s with err := t.err, rsp := some t.status }))

/-- Rule R38: which command other than INIT writes which of the seven elements (INIT writes all: InitStartsComputation).
An element changes only by the commands of its column, PHASE and ERR with the value and the condition of the command. -/
def Obligations.WritersOfEachElement : Prop :=
  ∀ (d : Decoded) (s t : State), execDecoded d s = .next t → d ≠ .instr .init →
    (t.crc ≠ s.crc → (∃ ty, d = .instr (.ldtype ty) ∨ d = .instr (.ldtypet ty)) ∧ s.phase = .type ∨
      ∃ i bs, d = .instr i ∧ payloadOf i = some bs ∧ s.phase = .data) ∧
    (t.result ≠ s.result → d = .instr .final) ∧
    (t.typeCode ≠ s.typeCode → d = .instr (.ldtype t.typeCode) ∨ d = .instr (.ldtypet t.typeCode)) ∧
    (t.phase ≠ s.phase →
      ((∃ ty, d = .instr (.ldtype ty) ∨ d = .instr (.ldtypet ty)) ∧ s.phase = .type ∧ t.phase = .data) ∨
      (d = .instr .final ∧ s.phase = .data ∧ t.phase = .done)) ∧
    (t.len ≠ s.len → ∃ i bs, d = .instr i ∧ payloadOf i = some bs) ∧
    (t.matchFlag ≠ s.matchFlag → ∃ c, d = .instr (.check c)) ∧
    (t.err ≠ s.err → s.err = 0#4 ∧
      ((t.err = 5#4 ∧ ∃ op, d = .illegal op) ∨
       (t.err = 3#4 ∧ ∃ i, d = .instr i ∧ s.phase.accepts i = false) ∨
       (t.err = 1#4 ∧ s.phase = .type ∧ ∃ ty, d = .instr (.ldtypet ty) ∧ allAlpha ty = false) ∨
       (t.err = 4#4 ∧ s.phase = .data ∧
         ∃ i bs, d = .instr i ∧ payloadOf i = some bs ∧ 0xFFFFFFFF < s.len.toNat + bs.length) ∨
       (t.err = 2#4 ∧ s.phase = .done ∧ ∃ c, d = .instr (.check c) ∧ s.result ≠ c)))

/-- Rule R142: LEN never wraps: a command other than INIT leaves LEN, as a number, as it was, or larger by exactly the number
of payload bytes it carries. -/
def Obligations.LengthNeverWraps : Prop :=
  ∀ (i : Instr) (s t : State), exec i s = .next t → i ≠ .init →
    t.len.toNat = s.len.toNat ∨ ∃ bs, payloadOf i = some bs ∧ t.len.toNat = s.len.toNat + bs.length

/-- Rule R205: ERR is sticky. Over any inputs without `rst` and INIT the block keeps its error code and every other element,
and it goes on answering. INIT and `rst` clear it. -/
def Obligations.ErrorSticksUntilInitOrRst : Prop :=
  (∀ (xs : List HostInput) (s : State), s.err ≠ 0#4 → (∀ x ∈ xs, clearsErr x = false) →
    ∃ t, runs xs s t ∧ sameElements t s) ∧
  (∀ (x : HostInput) (s : State), clearsErr x = true → ∃ t, runs [x] s t ∧ t.err = 0#4) ∧
  (∀ x : HostInput, clearsErr x = true ↔ x = .rst ∨ ∃ w, x = .command w ∧ decode w = .instr .init)

/-- Rule R59: NOP, RD, INIT, CHECK and any failing or gated command are idempotent; a repeated type load or FINAL raises
E_SEQUENCE. -/
def Obligations.RepeatedCommands : Prop :=
  ∀ (d : Decoded) (s t : State), execDecoded d s = .next t →
    ((d = .instr .nop ∨ (∃ i, d = .instr (.rd i)) ∨ d = .instr .init ∨ (∃ c, d = .instr (.check c)) ∨ t.err ≠ 0#4) →
      execDecoded d t = .next t) ∧
    ((∃ ty, d = .instr (.ldtype ty) ∨ d = .instr (.ldtypet ty)) ∨ d = .instr .final → t.err = 0#4 →
      ∃ u, execDecoded d t = .next u ∧ u = { t with err := 3#4, rsp := some u.status })

/-! ### Invariants -/

/-- Rules R25, R144, R201, R241, R245: every step keeps the invariant of the block. -/
def Obligations.EveryStepKeepsTheInvariant : Prop :=
  ∀ s t : State, s.Inv → step s = .next t → t.Inv

/-- The state after reset has the invariant. -/
def Obligations.ResetHasTheInvariant : Prop := State.reset.Inv

/-! ### Whole chunks -/

/-- Rule R57: any split of a payload into DATA1 to DATA4 commands gives the same end state. -/
def Obligations.PayloadSplitDoesNotMatter : Prop :=
  ∀ (is js : List Instr) (bs : List Byte) (s : State), payloadBytes is = some bs → payloadBytes js = some bs →
    s.err = 0#4 → s.phase = .data → s.len.toNat + bs.length ≤ 0xFFFFFFFF →
    ∃ t u, runs (commands is) s t ∧ runs (commands js) s u ∧ sameElements t u ∧
      t.crc = crcBytes s.crc bs ∧ t.len.toNat = s.len.toNat + bs.length ∧ t.err = 0#4 ∧ t.phase = .data

/-- Rule R79: the commands of the pseudo-instruction DATA carry exactly the given bytes, and all but the last carry four. -/
def Obligations.PseudoDataCarriesItsBytes : Prop :=
  ∀ bs : List Byte, payloadBytes (pseudoData bs) = some bs ∧
    (pseudoData bs).length = (bs.length + 3) / 4 ∧
    (∀ i ∈ (pseudoData bs).dropLast, ∃ v, i = .data4 v) ∧
    ∀ i ∈ pseudoData bs, i.wellFormed = true

/-- Rule R78: the assembler accepts exactly the operands that fit, each with its value, and what it accepts is a well-formed
command. Refused are a number that is too large, a string of another length or with a character that is not ASCII, a name
or a list of bytes where none may stand, a missing operand and an extra operand. The text of a line is not read here (log 16). -/
def Obligations.AssembledCommandsAreWellFormed : Prop :=
  (∀ (m : List Char) (ops : List AsmOperand) (i : Instr), assemble m ops = some i → i.wellFormed = true) ∧
  (∀ (m : List Char) (n : Nat) (mk : Word → Instr), (m, n, mk) ∈ byteCommands →
    (∀ v, v < 2 ^ (8 * n) → assemble m [.num v] = some (mk (BitVec.ofNat 32 v))) ∧
    (∀ v, 2 ^ (8 * n) ≤ v → assemble m [.num v] = none) ∧
    (∀ cs : List Char, cs.length = n → (∀ c ∈ cs, c.toNat < 128) → ∃ w : Word, assemble m [.str cs] = some (mk w) ∧
      bytesBe w n = cs.map fun c => BitVec.ofNat 8 c.toNat) ∧
    (∀ cs : List Char, cs.length ≠ n ∨ (∃ c ∈ cs, 128 ≤ c.toNat) → assemble m [.str cs] = none) ∧
    (∀ cs, assemble m [.name cs] = none) ∧ (∀ ns, assemble m [.bytes ns] = none) ∧ assemble m [] = none) ∧
  (∀ v, v < 2 ^ 32 → assemble ['C','H','E','C','K'] [.num v] = some (.check (BitVec.ofNat 32 v))) ∧
  (∀ v, 2 ^ 32 ≤ v → assemble ['C','H','E','C','K'] [.num v] = none) ∧
  (∀ cs, assemble ['C','H','E','C','K'] [.str cs] = none ∧ assemble ['C','H','E','C','K'] [.name cs] = none) ∧
  (∀ ns, assemble ['C','H','E','C','K'] [.bytes ns] = none) ∧ assemble ['C','H','E','C','K'] [] = none ∧
  (∀ v, v < 8 → assemble ['R','D'] [.num v] = some (.rd (BitVec.ofNat 3 v))) ∧
  (∀ v, 8 ≤ v → assemble ['R','D'] [.num v] = none) ∧
  assemble ['R','D'] [.name ['S','T','A','T','U','S']] = some (.rd 0#3) ∧
  assemble ['R','D'] [.name ['R','E','S','U','L','T']] = some (.rd 1#3) ∧
  assemble ['R','D'] [.name ['C','R','C','S','T','A','T','E']] = some (.rd 2#3) ∧
  assemble ['R','D'] [.name ['T','Y','P','E']] = some (.rd 3#3) ∧
  assemble ['R','D'] [.name ['F','L','A','G','S']] = some (.rd 4#3) ∧
  assemble ['R','D'] [.name ['L','E','N']] = some (.rd 5#3) ∧
  assemble ['R','D'] [.name ['I','D']] = some (.rd 6#3) ∧
  (∀ cs, cs ∉ regNames.map Prod.fst → assemble ['R','D'] [.name cs] = none) ∧
  (∀ cs, assemble ['R','D'] [.str cs] = none) ∧ (∀ ns, assemble ['R','D'] [.bytes ns] = none) ∧ assemble ['R','D'] [] = none ∧
  assemble ['N','O','P'] [] = some .nop ∧ assemble ['I','N','I','T'] [] = some .init ∧
  assemble ['F','I','N','A','L'] [] = some .final ∧
  (∀ o, assemble ['N','O','P'] [o] = none ∧ assemble ['I','N','I','T'] [o] = none ∧
    assemble ['F','I','N','A','L'] [o] = none) ∧
  (∀ (m : List Char) (o p : AsmOperand) (ops : List AsmOperand), assemble m (o :: p :: ops) = none)

/-- Rule R78: the disassembler prints the word of a well-formed command as the command's text, and that text assembles to
the command again. How numbers are spaced and written in it is the model's choice (log 16). -/
def Obligations.PrintedCommandsAssembleAgain : Prop :=
  ∀ i : Instr, i.wellFormed = true →
    disassemble (encode i) = instrText i ∧ assembleLine (disassemble (encode i)) = some i

/-- Rule R134: INIT, a type load, DATA commands whose bytes form d, FINAL, from any state: RESULT is the checksum of the type
bytes followed by d, and LEN is the length of d. A raw load takes any type, a text load a type of four letters. -/
def Obligations.ChunkSequenceComputesChecksum : Prop :=
  ∀ (s : State) (ty : Word) (is : List Instr) (d : List Byte) (load : Instr),
    payloadBytes is = some d → d.length ≤ 0xFFFFFFFF →
    load = .ldtype ty ∨ (load = .ldtypet ty ∧ allAlpha ty = true) →
    ∃ t, runs (commands ([.init, load] ++ is ++ [.final])) s t ∧
      t.result = crc32 (bytesBe ty 4 ++ d) ∧ t.len.toNat = d.length ∧ t.typeCode = ty ∧ t.phase = .done ∧
      t.err = 0#4 ∧ t.matchFlag = false

/-- Rules R56, R145, R146: a VERIFY sequence, from any state, ends with STATUS = 0x07 exactly when the stored checksum is the
checksum of the type bytes and the payload, and otherwise with STATUS = 0x23. -/
def Obligations.VerifyAcceptsExactlyTheChecksum : Prop :=
  ∀ (s : State) (ty c : Word) (d : List Byte), d.length ≤ 0xFFFFFFFF →
    ∃ t, runs (commands (pseudoVerify ty d c)) s t ∧
      (c = crc32 (bytesBe ty 4 ++ d) → t.rspData = some 0x00000007#32 ∧ t.err = 0#4 ∧ t.matchFlag = true) ∧
      (c ≠ crc32 (bytesBe ty 4 ++ d) → t.rspData = some 0x00000023#32 ∧ t.err = 2#4 ∧ t.matchFlag = false)

/-- Rules R53, R56, and vector W10: a chunk built by the block, put on the wire by the host and read back, passes its check:
for every type, every payload that fits, and whatever states the two runs start from. The build program loads the type raw
and splits the payload as rule R79 does, which is the model's choice among the host's (log 18). -/
def Obligations.BuiltChunkPassesItsCheck : Prop :=
  ∀ (s u : State) (ty : Word) (d : List Byte), d.length ≤ 0xFFFFFFFF →
    ∃ t prog v, runs (commands (buildProgram ty d)) s t ∧
      checkProgram (serialise t.len ty t.result d) = some prog ∧
      runs (commands prog) u v ∧ v.rspData = some 0x00000007#32
end

