-- ==== Sys2Proof/Laws/Crc.lean ====
section
/-! SUPPORT. The small lemmas of the operands and of the CRC arithmetic (rules R9, R131). -/

namespace Sys2Proof.Machine

@[simp] theorem crcBytes_nil (c : Word) : crcBytes c [] = c := rfl

@[simp] theorem crcBytes_cons (c : Word) (b : Byte) (t : List Byte) :
    crcBytes c (b :: t) = crcBytes (crcByte c b) t := rfl

/-- Absorbing two parts of a stream is absorbing the whole (rule R131). -/
theorem crcBytes_append (c : Word) (a b : List Byte) :
    crcBytes c (a ++ b) = crcBytes (crcBytes c a) b := by
  induction a generalizing c with
  | nil => rfl
  | cons x xs ih => exact ih (crcByte c x)

@[simp] theorem bytesBe_length (w : Word) (n : Nat) : (bytesBe w n).length = n := by
  induction n with
  | zero => rfl
  | succ n ih => simp [bytesBe, ih]

/-- The type bytes are the 4 big-endian bytes of the word (rules R8, R9). -/
theorem typeBytes_eq_bytesBe (t : Word) : typeBytes t = bytesBe t 4 := rfl

@[simp] theorem typeBytes_length (t : Word) : (typeBytes t).length = 4 := rfl

end Sys2Proof.Machine
end

