-- ==== Sys2Proof/Laws/PerInstr.lean ====
section
/-! SUPPORT. One statement for each command as syntax: its word holds its opcode in bits [39:32] and its argument in bits [31:0] (rules R70, R72). -/

namespace Sys2Proof.Laws

/-- The opcode field of a word made from two fields (rule R70). -/
theorem cmdOp_cmdWord (op : BitVec 8) (arg : Word) : cmdOp (cmdWord op arg) = op := by
  ext i hi
  have h : (op ++ arg).getLsbD (32 + i) = op.getLsbD i := by
    rw [BitVec.getLsbD_append]; simp
  simpa [cmdOp, cmdWord, hi] using h

/-- The argument field of a word made from two fields (rule R70). -/
theorem cmdArg_cmdWord (op : BitVec 8) (arg : Word) : cmdArg (cmdWord op arg) = arg := by
  ext i hi
  have h : (op ++ arg).getLsbD i = arg.getLsbD i := by
    rw [BitVec.getLsbD_append]; simp [hi]
  simpa [cmdArg, cmdWord, hi] using h

/-- The word of a command holds the command's opcode and argument (rules R70, R72). -/
def EncodedFields.Statement (i : Instr) : Prop :=
  cmdOp (encode i) = i.opcode ∧ cmdArg (encode i) = i.argument

theorem EncodedFields.nop : EncodedFields.Statement .nop := ⟨cmdOp_cmdWord _ _, cmdArg_cmdWord _ _⟩
theorem EncodedFields.init : EncodedFields.Statement .init := ⟨cmdOp_cmdWord _ _, cmdArg_cmdWord _ _⟩
theorem EncodedFields.ldtype (t : Word) : EncodedFields.Statement (.ldtype t) :=
  ⟨cmdOp_cmdWord _ _, cmdArg_cmdWord _ _⟩
theorem EncodedFields.ldtypet (t : Word) : EncodedFields.Statement (.ldtypet t) :=
  ⟨cmdOp_cmdWord _ _, cmdArg_cmdWord _ _⟩
theorem EncodedFields.data1 (v : Word) : EncodedFields.Statement (.data1 v) :=
  ⟨cmdOp_cmdWord _ _, cmdArg_cmdWord _ _⟩
theorem EncodedFields.data2 (v : Word) : EncodedFields.Statement (.data2 v) :=
  ⟨cmdOp_cmdWord _ _, cmdArg_cmdWord _ _⟩
theorem EncodedFields.data3 (v : Word) : EncodedFields.Statement (.data3 v) :=
  ⟨cmdOp_cmdWord _ _, cmdArg_cmdWord _ _⟩
theorem EncodedFields.data4 (v : Word) : EncodedFields.Statement (.data4 v) :=
  ⟨cmdOp_cmdWord _ _, cmdArg_cmdWord _ _⟩
theorem EncodedFields.final : EncodedFields.Statement .final := ⟨cmdOp_cmdWord _ _, cmdArg_cmdWord _ _⟩
theorem EncodedFields.check (c : Word) : EncodedFields.Statement (.check c) :=
  ⟨cmdOp_cmdWord _ _, cmdArg_cmdWord _ _⟩
theorem EncodedFields.rd (i : BitVec 3) : EncodedFields.Statement (.rd i) :=
  ⟨cmdOp_cmdWord _ _, cmdArg_cmdWord _ _⟩

end Sys2Proof.Laws
end

