-- ==== Sys2Proof/Laws/Decode.lean ====
section
/-! SUPPORT. What the decoder can answer, said once (rules R72, R80), and the words of the two fields. -/

namespace Sys2Proof

/-- Decoding a word made from two fields (rule R70). -/
theorem decode_cmdWord (op : BitVec 8) (arg : Word) : decode (cmdWord op arg) = decodeFields op arg := by
  rw [decode, Laws.cmdOp_cmdWord, Laws.cmdArg_cmdWord]

/-- A word is made of its two fields (rule R70). -/
theorem cmdWord_fields (w : CmdWord) : cmdWord (cmdOp w) (cmdArg w) = w := by
  apply BitVec.eq_of_toNat_eq
  have h : (cmdWord (cmdOp w) (cmdArg w)).toNat = (cmdOp w).toNat <<< 32 ||| (cmdArg w).toNat :=
    BitVec.toNat_append ..
  rw [h, ← Nat.shiftLeft_add_eq_or_of_lt (BitVec.isLt _)]
  simp [cmdOp, cmdArg, BitVec.extractLsb'_toNat, Nat.shiftRight_eq_div_pow, Nat.shiftLeft_eq]
  omega

/-- Every opcode of the map gives its command, and every other value is illegal (rules R72, R80). -/
theorem decodeFields_cases (op : BitVec 8) (arg : Word) :
    (op = 0x00#8 ∧ decodeFields op arg = .instr .nop) ∨
    (op = 0x01#8 ∧ decodeFields op arg = .instr .init) ∨
    (op = 0x02#8 ∧ decodeFields op arg = .instr (.ldtype arg)) ∨
    (op = 0x03#8 ∧ decodeFields op arg = .instr (.ldtypet arg)) ∨
    (op = 0x08#8 ∧ decodeFields op arg = .instr (.data1 (lowBytes 1 arg))) ∨
    (op = 0x09#8 ∧ decodeFields op arg = .instr (.data2 (lowBytes 2 arg))) ∨
    (op = 0x0A#8 ∧ decodeFields op arg = .instr (.data3 (lowBytes 3 arg))) ∨
    (op = 0x0B#8 ∧ decodeFields op arg = .instr (.data4 arg)) ∨
    (op = 0x10#8 ∧ decodeFields op arg = .instr .final) ∨
    (op = 0x11#8 ∧ decodeFields op arg = .instr (.check arg)) ∨
    (op = 0x20#8 ∧ decodeFields op arg = .instr (.rd (arg.extractLsb' 0 3))) ∨
    (op ≠ 0x00#8 ∧ op ≠ 0x01#8 ∧ op ≠ 0x02#8 ∧ op ≠ 0x03#8 ∧ op ≠ 0x08#8 ∧ op ≠ 0x09#8 ∧
      op ≠ 0x0A#8 ∧ op ≠ 0x0B#8 ∧ op ≠ 0x10#8 ∧ op ≠ 0x11#8 ∧ op ≠ 0x20#8 ∧ decodeFields op arg = .illegal op) := by
  by_cases h0 : op = 0x00#8
  · subst h0
    exact .inl ⟨rfl, rfl⟩
  by_cases h1 : op = 0x01#8
  · subst h1
    exact .inr (.inl ⟨rfl, rfl⟩)
  by_cases h2 : op = 0x02#8
  · subst h2
    exact .inr (.inr (.inl ⟨rfl, rfl⟩))
  by_cases h3 : op = 0x03#8
  · subst h3
    exact .inr (.inr (.inr (.inl ⟨rfl, rfl⟩)))
  by_cases h4 : op = 0x08#8
  · subst h4
    exact .inr (.inr (.inr (.inr (.inl ⟨rfl, rfl⟩))))
  by_cases h5 : op = 0x09#8
  · subst h5
    exact .inr (.inr (.inr (.inr (.inr (.inl ⟨rfl, rfl⟩)))))
  by_cases h6 : op = 0x0A#8
  · subst h6
    exact .inr (.inr (.inr (.inr (.inr (.inr (.inl ⟨rfl, rfl⟩))))))
  by_cases h7 : op = 0x0B#8
  · subst h7
    exact .inr (.inr (.inr (.inr (.inr (.inr (.inr (.inl ⟨rfl, rfl⟩)))))))
  by_cases h8 : op = 0x10#8
  · subst h8
    exact .inr (.inr (.inr (.inr (.inr (.inr (.inr (.inr (.inl ⟨rfl, rfl⟩))))))))
  by_cases h9 : op = 0x11#8
  · subst h9
    exact .inr (.inr (.inr (.inr (.inr (.inr (.inr (.inr (.inr (.inl ⟨rfl, rfl⟩)))))))))
  by_cases h10 : op = 0x20#8
  · subst h10
    exact .inr (.inr (.inr (.inr (.inr (.inr (.inr (.inr (.inr (.inr (.inl ⟨rfl, rfl⟩))))))))))
  refine .inr (.inr (.inr (.inr (.inr (.inr (.inr (.inr (.inr (.inr (.inr ⟨h0, h1, h2, h3, h4, h5, h6, h7, h8, h9, h10, ?_⟩))))))))))
  rw [decodeFields, if_neg h0, if_neg h1, if_neg h2, if_neg h3, if_neg h4, if_neg h5, if_neg h6, if_neg h7, if_neg h8, if_neg h9, if_neg h10]

end Sys2Proof
end

