-- ==== Sys2Proof/Laws/State.lean ====
section
/-! SUPPORT. One lemma for each field and each named update of State, so that no later proof unfolds a record update. -/

namespace Sys2Proof.Machine

variable {s : State} {v : Word} {e : ErrCode} {p : Phase} {t : Word} {bs : List Byte} {b : Bool}

@[simp] theorem State.respond_crc : (s.respond v).crc = s.crc := rfl
@[simp] theorem State.respond_result : (s.respond v).result = s.result := rfl
@[simp] theorem State.respond_typeCode : (s.respond v).typeCode = s.typeCode := rfl
@[simp] theorem State.respond_phase : (s.respond v).phase = s.phase := rfl
@[simp] theorem State.respond_len : (s.respond v).len = s.len := rfl
@[simp] theorem State.respond_matchFlag : (s.respond v).matchFlag = s.matchFlag := rfl
@[simp] theorem State.respond_err : (s.respond v).err = s.err := rfl
@[simp] theorem State.respond_rsp : (s.respond v).rsp = some v := rfl
@[simp] theorem State.respond_inputs : (s.respond v).inputs = s.inputs := rfl

@[simp] theorem State.answer_crc : (s.answer).crc = s.crc := rfl
@[simp] theorem State.answer_result : (s.answer).result = s.result := rfl
@[simp] theorem State.answer_typeCode : (s.answer).typeCode = s.typeCode := rfl
@[simp] theorem State.answer_phase : (s.answer).phase = s.phase := rfl
@[simp] theorem State.answer_len : (s.answer).len = s.len := rfl
@[simp] theorem State.answer_matchFlag : (s.answer).matchFlag = s.matchFlag := rfl
@[simp] theorem State.answer_err : (s.answer).err = s.err := rfl
@[simp] theorem State.answer_rsp : (s.answer).rsp = some s.status := rfl
@[simp] theorem State.answer_inputs : (s.answer).inputs = s.inputs := rfl

@[simp] theorem State.clear_crc : (s.clear p).crc = crcInit := rfl
@[simp] theorem State.clear_result : (s.clear p).result = 0#32 := rfl
@[simp] theorem State.clear_typeCode : (s.clear p).typeCode = 0#32 := rfl
@[simp] theorem State.clear_phase : (s.clear p).phase = p := rfl
@[simp] theorem State.clear_len : (s.clear p).len = 0#32 := rfl
@[simp] theorem State.clear_matchFlag : (s.clear p).matchFlag = false := rfl
@[simp] theorem State.clear_err : (s.clear p).err = 0#4 := rfl
@[simp] theorem State.clear_rsp : (s.clear p).rsp = s.rsp := rfl
@[simp] theorem State.clear_inputs : (s.clear p).inputs = s.inputs := rfl

@[simp] theorem State.loadType_crc : (s.loadType t).crc = crcBytes s.crc (typeBytes t) := rfl
@[simp] theorem State.loadType_result : (s.loadType t).result = s.result := rfl
@[simp] theorem State.loadType_typeCode : (s.loadType t).typeCode = t := rfl
@[simp] theorem State.loadType_phase : (s.loadType t).phase = .data := rfl
@[simp] theorem State.loadType_len : (s.loadType t).len = s.len := rfl
@[simp] theorem State.loadType_matchFlag : (s.loadType t).matchFlag = s.matchFlag := rfl
@[simp] theorem State.loadType_err : (s.loadType t).err = s.err := rfl
@[simp] theorem State.loadType_rsp : (s.loadType t).rsp = s.rsp := rfl
@[simp] theorem State.loadType_inputs : (s.loadType t).inputs = s.inputs := rfl

@[simp] theorem State.absorb_crc : (s.absorb bs).crc = crcBytes s.crc bs := rfl
@[simp] theorem State.absorb_result : (s.absorb bs).result = s.result := rfl
@[simp] theorem State.absorb_typeCode : (s.absorb bs).typeCode = s.typeCode := rfl
@[simp] theorem State.absorb_phase : (s.absorb bs).phase = s.phase := rfl
@[simp] theorem State.absorb_len : (s.absorb bs).len = s.len + BitVec.ofNat 32 bs.length := rfl
@[simp] theorem State.absorb_matchFlag : (s.absorb bs).matchFlag = s.matchFlag := rfl
@[simp] theorem State.absorb_err : (s.absorb bs).err = s.err := rfl
@[simp] theorem State.absorb_rsp : (s.absorb bs).rsp = s.rsp := rfl
@[simp] theorem State.absorb_inputs : (s.absorb bs).inputs = s.inputs := rfl

@[simp] theorem State.capture_crc : (s.capture).crc = s.crc := rfl
@[simp] theorem State.capture_result : (s.capture).result = s.crc ^^^ crcXorOut := rfl
@[simp] theorem State.capture_typeCode : (s.capture).typeCode = s.typeCode := rfl
@[simp] theorem State.capture_phase : (s.capture).phase = .done := rfl
@[simp] theorem State.capture_len : (s.capture).len = s.len := rfl
@[simp] theorem State.capture_matchFlag : (s.capture).matchFlag = s.matchFlag := rfl
@[simp] theorem State.capture_err : (s.capture).err = s.err := rfl
@[simp] theorem State.capture_rsp : (s.capture).rsp = s.rsp := rfl
@[simp] theorem State.capture_inputs : (s.capture).inputs = s.inputs := rfl

@[simp] theorem State.setMatch_crc : (s.setMatch b).crc = s.crc := rfl
@[simp] theorem State.setMatch_result : (s.setMatch b).result = s.result := rfl
@[simp] theorem State.setMatch_typeCode : (s.setMatch b).typeCode = s.typeCode := rfl
@[simp] theorem State.setMatch_phase : (s.setMatch b).phase = s.phase := rfl
@[simp] theorem State.setMatch_len : (s.setMatch b).len = s.len := rfl
@[simp] theorem State.setMatch_matchFlag : (s.setMatch b).matchFlag = b := rfl
@[simp] theorem State.setMatch_err : (s.setMatch b).err = s.err := rfl
@[simp] theorem State.setMatch_rsp : (s.setMatch b).rsp = s.rsp := rfl
@[simp] theorem State.setMatch_inputs : (s.setMatch b).inputs = s.inputs := rfl

@[simp] theorem State.takeRsp_crc : (s.takeRsp).crc = s.crc := rfl
@[simp] theorem State.takeRsp_result : (s.takeRsp).result = s.result := rfl
@[simp] theorem State.takeRsp_typeCode : (s.takeRsp).typeCode = s.typeCode := rfl
@[simp] theorem State.takeRsp_phase : (s.takeRsp).phase = s.phase := rfl
@[simp] theorem State.takeRsp_len : (s.takeRsp).len = s.len := rfl
@[simp] theorem State.takeRsp_matchFlag : (s.takeRsp).matchFlag = s.matchFlag := rfl
@[simp] theorem State.takeRsp_err : (s.takeRsp).err = s.err := rfl
@[simp] theorem State.takeRsp_rsp : (s.takeRsp).rsp = none := rfl
@[simp] theorem State.takeRsp_inputs : (s.takeRsp).inputs = s.inputs := rfl

@[simp] theorem State.applyRst_crc : (s.applyRst).crc = crcInit := rfl
@[simp] theorem State.applyRst_result : (s.applyRst).result = 0#32 := rfl
@[simp] theorem State.applyRst_typeCode : (s.applyRst).typeCode = 0#32 := rfl
@[simp] theorem State.applyRst_phase : (s.applyRst).phase = .idle := rfl
@[simp] theorem State.applyRst_len : (s.applyRst).len = 0#32 := rfl
@[simp] theorem State.applyRst_matchFlag : (s.applyRst).matchFlag = false := rfl
@[simp] theorem State.applyRst_err : (s.applyRst).err = 0#4 := rfl
@[simp] theorem State.applyRst_rsp : (s.applyRst).rsp = none := rfl
@[simp] theorem State.applyRst_inputs : (s.applyRst).inputs = s.inputs := rfl

@[simp] theorem State.recordErr_crc : (s.recordErr e).crc = s.crc := by
  unfold State.recordErr; split <;> rfl
@[simp] theorem State.recordErr_result : (s.recordErr e).result = s.result := by
  unfold State.recordErr; split <;> rfl
@[simp] theorem State.recordErr_typeCode : (s.recordErr e).typeCode = s.typeCode := by
  unfold State.recordErr; split <;> rfl
@[simp] theorem State.recordErr_phase : (s.recordErr e).phase = s.phase := by
  unfold State.recordErr; split <;> rfl
@[simp] theorem State.recordErr_len : (s.recordErr e).len = s.len := by
  unfold State.recordErr; split <;> rfl
@[simp] theorem State.recordErr_matchFlag : (s.recordErr e).matchFlag = s.matchFlag := by
  unfold State.recordErr; split <;> rfl
@[simp] theorem State.recordErr_rsp : (s.recordErr e).rsp = s.rsp := by
  unfold State.recordErr; split <;> rfl
@[simp] theorem State.recordErr_inputs : (s.recordErr e).inputs = s.inputs := by
  unfold State.recordErr; split <;> rfl

/-- A code is recorded where none stands (rule R204). -/
theorem State.recordErr_err_of_zero (h : s.err = 0#4) : (s.recordErr e).err = e.code := by
  simp [State.recordErr, h]

/-- The first error stays (rule R205). -/
theorem State.recordErr_of_ne_zero (h : s.err ≠ 0#4) : s.recordErr e = s := by
  simp [State.recordErr, h]

end Sys2Proof.Machine
end

