-- ==== Sys2Proof/Laws/Ops.lean ====
section
/-! SUPPORT. What each shared operation can do, said once. -/

namespace Sys2Proof.Machine

variable {s t : State} {e : ErrCode} {p : Phase} {body : State → Result} {n : Nat} {arg : Word}

/-- While a response is available the port shows it. -/
theorem State.rspData_of_valid (h : s.rspValid = true) : s.rspData = s.rsp := by simp [State.rspData, h]

/-- While no response is available the port has no value. -/
theorem State.rspData_of_invalid (h : s.rspValid = false) : s.rspData = none := by simp [State.rspData, h]

/-- STATUS does not see the response port or the host's inputs. -/
theorem State.status_congr (he : t.err = s.err) (hm : t.matchFlag = s.matchFlag) (hp : t.phase = s.phase) :
    t.status = s.status := by
  simp only [State.status, State.statusByte, he, hm, hp]

@[simp] theorem State.answer_status : s.answer.status = s.status := rfl

@[simp] theorem State.takeRsp_status : s.takeRsp.status = s.status := rfl

/-- Ending a command answers STATUS and changes nothing else. -/
@[simp] theorem finish_eq_next : finish s = .next t ↔ s.answer = t := by
  simp [finish]

/-- Raising an error answers STATUS after recording it (rule R204). -/
theorem raiseErr_eq_next : raiseErr e s = .next t ↔ (s.recordErr e).answer = t := by
  simp [raiseErr]

/-- The gate: either the command runs with ERR = 0, or it is ignored (rule R203). -/
theorem gated_cases (h : gated body s = .next t) :
    (s.err = 0#4 ∧ body s = .next t) ∨ (s.err ≠ 0#4 ∧ t = s.answer) := by
  unfold gated at h
  split at h
  · exact .inl ⟨‹_›, h⟩
  · exact .inr ⟨‹_›, (finish_eq_next.mp h).symm⟩

/-- An ignored command (rule R203). -/
theorem gated_of_err (h : s.err ≠ 0#4) : gated body s = finish s := by
  simp [gated, h]

/-- A command the gate lets through. -/
theorem gated_of_noErr (h : s.err = 0#4) : gated body s = body s := by
  simp [gated, h]

/-- The phase check: either the command runs in its phase, or it raises E_SEQUENCE (rule R206). -/
theorem inPhase_cases (h : inPhase p body s = .next t) :
    (s.phase = p ∧ body s = .next t) ∨ (s.phase ≠ p ∧ t = (s.recordErr .sequence).answer) := by
  unfold inPhase at h
  split at h
  · exact .inl ⟨‹_›, h⟩
  · exact .inr ⟨‹_›, (raiseErr_eq_next.mp h).symm⟩

/-- A command in its phase. -/
theorem inPhase_of_eq (h : s.phase = p) : inPhase p body s = body s := by
  simp [inPhase, h]

/-- A command out of its phase. -/
theorem inPhase_of_ne (h : s.phase ≠ p) : inPhase p body s = raiseErr .sequence s := by
  simp [inPhase, h]

/-- Everything a DATAn can do (rules R140, R142). -/
theorem absorbPayload_cases (h : absorbPayload n arg s = .next t) :
    (s.err ≠ 0#4 ∧ t = s.answer) ∨
    (s.err = 0#4 ∧ s.phase ≠ .data ∧ t = (s.recordErr .sequence).answer) ∨
    (s.err = 0#4 ∧ s.phase = .data ∧ Config.lenMax < s.len.toNat + n ∧ t = (s.recordErr .lengthOvf).answer) ∨
    (s.err = 0#4 ∧ s.phase = .data ∧ s.len.toNat + n ≤ Config.lenMax ∧ t = (s.absorb (bytesBe arg n)).answer) := by
  rcases gated_cases h with ⟨he, h⟩ | ⟨he, h⟩
  · rcases inPhase_cases h with ⟨hp, h⟩ | ⟨hp, h⟩
    · split at h
      · exact .inr (.inr (.inl ⟨he, hp, ‹_›, (raiseErr_eq_next.mp h).symm⟩))
      · exact .inr (.inr (.inr ⟨he, hp, by omega, (finish_eq_next.mp h).symm⟩))
    · exact .inr (.inl ⟨he, hp, h⟩)
  · exact .inl ⟨he, h⟩

end Sys2Proof.Machine
end

