-- ==== Sys2Proof/Laws/Step.lean ====
section
/-! SUPPORT. Everything one step can do, said once. -/

namespace Sys2Proof.Machine

variable {s t : State}

/-- What a step does is decided by the host's first input. -/
theorem step_cases (h : step s = .next t) :
    (s.inputs = [] ∧ t = s) ∨
    (∃ rest, s.inputs = .rst :: rest ∧ t = ({ s with inputs := rest } : State).applyRst) ∨
    (∃ rest, s.inputs = .takeResponse :: rest ∧ t = ({ s with inputs := rest } : State).takeRsp) ∨
    (∃ w rest, s.inputs = .command w :: rest ∧
      execDecoded (decode w) ({ s with inputs := rest } : State).takeRsp = .next t) := by
  unfold step at h
  split at h
  · rename_i hs
    exact .inl ⟨hs, (Host.Outcome.next.inj h).symm⟩
  · rename_i rest hs
    exact .inr (.inl ⟨rest, hs, (Host.Outcome.next.inj h).symm⟩)
  · rename_i rest hs
    exact .inr (.inr (.inl ⟨rest, hs, (Host.Outcome.next.inj h).symm⟩))
  · rename_i w rest hs
    exact .inr (.inr (.inr ⟨w, rest, hs, h⟩))

end Sys2Proof.Machine
end

