-- ==== Sys2Proof/Laws/Exec.lean ====
section
/-! SUPPORT. Everything a decoded command word can do, said once (rules R38, R140, R203 to R206), and the inversion of a run. -/

namespace Sys2Proof.Machine

variable {s t : State} {d : Decoded}

/-- A gated command that runs: an illegal opcode. -/
def IllegalCase (d : Decoded) (s t : State) : Prop :=
  ∃ op, d = .illegal op ∧ t = (s.recordErr .illegalOp).answer

/-- A gated command that runs: a type load (rules R100, R102). -/
def LoadCase (d : Decoded) (s t : State) : Prop :=
  ∃ ty, (d = .instr (.ldtype ty) ∨ d = .instr (.ldtypet ty)) ∧
    ((s.phase ≠ .type ∧ t = (s.recordErr .sequence).answer) ∨
      (s.phase = .type ∧ d = .instr (.ldtypet ty) ∧ allAlpha ty = false ∧ t = (s.recordErr .invalidType).answer) ∨
      (s.phase = .type ∧ (d = .instr (.ldtypet ty) → allAlpha ty = true) ∧ t = (s.loadType ty).answer))

/-- A gated command that runs: a DATAn (rule R140). -/
def DataCase (d : Decoded) (s t : State) : Prop :=
  ∃ i bs, d = .instr i ∧ payloadOf i = some bs ∧ bs.length ≤ 4 ∧
    ((s.phase ≠ .data ∧ t = (s.recordErr .sequence).answer) ∨
      (s.phase = .data ∧ 0xFFFFFFFF < s.len.toNat + bs.length ∧ t = (s.recordErr .lengthOvf).answer) ∨
      (s.phase = .data ∧ s.len.toNat + bs.length ≤ 0xFFFFFFFF ∧ t = (s.absorb bs).answer))

/-- A gated command that runs: FINAL (rule R143). -/
def FinalCase (d : Decoded) (s t : State) : Prop :=
  d = .instr .final ∧
    ((s.phase ≠ .data ∧ t = (s.recordErr .sequence).answer) ∨ (s.phase = .data ∧ t = s.capture.answer))

/-- A gated command that runs: CHECK (rule R145). -/
def CheckCase (d : Decoded) (s t : State) : Prop :=
  ∃ c, d = .instr (.check c) ∧
    ((s.phase ≠ .done ∧ t = (s.recordErr .sequence).answer) ∨
      (s.phase = .done ∧ s.result = c ∧ t = (s.setMatch true).answer) ∨
      (s.phase = .done ∧ s.result ≠ c ∧ t = ((s.setMatch false).recordErr .checksum).answer))

/-- DATAn by its count of bytes. -/
theorem dataCase_of_absorbPayload {i : Instr} {n : Nat} {v : Word} (hp : payloadOf i = some (bytesBe v n)) (hn : n ≤ 4)
    (h : absorbPayload n v s = .next t) :
    (s.err ≠ 0#4 ∧ t = s.answer) ∨ (s.err = 0#4 ∧ DataCase (.instr i) s t) := by
  rcases absorbPayload_cases h with ⟨he, ht⟩ | ⟨he, hph, ht⟩ | ⟨he, hph, hl, ht⟩ | ⟨he, hph, hl, ht⟩
  · exact .inl ⟨he, ht⟩
  · exact .inr ⟨he, i, _, rfl, hp, by simpa using hn, .inl ⟨hph, ht⟩⟩
  · exact .inr ⟨he, i, _, rfl, hp, by simpa using hn, .inr (.inl ⟨hph, by simpa [Config.lenMax] using hl, ht⟩)⟩
  · exact .inr ⟨he, i, _, rfl, hp, by simpa using hn, .inr (.inr ⟨hph, by simpa [Config.lenMax] using hl, ht⟩)⟩

/-- LDTYPE (rule R100). -/
theorem execLdtype_cases {ty : Word} (h : execLdtype ty s = .next t) :
    (s.err ≠ 0#4 ∧ t = s.answer) ∨ (s.err = 0#4 ∧ LoadCase (.instr (.ldtype ty)) s t) := by
  rcases gated_cases h with ⟨he, h⟩ | h
  · rcases inPhase_cases h with ⟨hp, h⟩ | ⟨hp, h⟩
    · exact .inr ⟨he, ty, .inl rfl, .inr (.inr ⟨hp, by simp, (finish_eq_next.mp h).symm⟩)⟩
    · exact .inr ⟨he, ty, .inl rfl, .inl ⟨hp, h⟩⟩
  · exact .inl h

/-- LDTYPET (rule R102). -/
theorem execLdtypet_cases {ty : Word} (h : execLdtypet ty s = .next t) :
    (s.err ≠ 0#4 ∧ t = s.answer) ∨ (s.err = 0#4 ∧ LoadCase (.instr (.ldtypet ty)) s t) := by
  rcases gated_cases h with ⟨he, h⟩ | h
  · rcases inPhase_cases h with ⟨hp, h⟩ | ⟨hp, h⟩
    · split at h
      · rename_i hA
        exact .inr ⟨he, ty, .inr rfl, .inr (.inr ⟨hp, fun _ => hA, (finish_eq_next.mp h).symm⟩)⟩
      · rename_i hA
        exact .inr ⟨he, ty, .inr rfl, .inr (.inl ⟨hp, rfl, by simpa using hA, (raiseErr_eq_next.mp h).symm⟩)⟩
    · exact .inr ⟨he, ty, .inr rfl, .inl ⟨hp, h⟩⟩
  · exact .inl h

/-- FINAL (rule R143). -/
theorem execFinal_cases (h : execFinal s = .next t) :
    (s.err ≠ 0#4 ∧ t = s.answer) ∨ (s.err = 0#4 ∧ FinalCase (.instr .final) s t) := by
  rcases gated_cases h with ⟨he, h⟩ | h
  · rcases inPhase_cases h with ⟨hp, h⟩ | ⟨hp, h⟩
    · exact .inr ⟨he, rfl, .inr ⟨hp, (finish_eq_next.mp h).symm⟩⟩
    · exact .inr ⟨he, rfl, .inl ⟨hp, h⟩⟩
  · exact .inl h

/-- CHECK (rule R145). -/
theorem execCheck_cases {c : Word} (h : execCheck c s = .next t) :
    (s.err ≠ 0#4 ∧ t = s.answer) ∨ (s.err = 0#4 ∧ CheckCase (.instr (.check c)) s t) := by
  rcases gated_cases h with ⟨he, h⟩ | h
  · rcases inPhase_cases h with ⟨hp, h⟩ | ⟨hp, h⟩
    · split at h
      · exact .inr ⟨he, c, rfl, .inr (.inl ⟨hp, ‹_›, (finish_eq_next.mp h).symm⟩)⟩
      · exact .inr ⟨he, c, rfl, .inr (.inr ⟨hp, ‹_›, (raiseErr_eq_next.mp h).symm⟩)⟩
    · exact .inr ⟨he, c, rfl, .inl ⟨hp, h⟩⟩
  · exact .inl h

/-- Everything a command word can do: NOP, RD and INIT run; a gated command is ignored with ERR ≠ 0, and otherwise does one
of the cases of its family. -/
theorem execDecoded_cases (h : execDecoded d s = .next t) :
    (d = .instr .nop ∧ t = s.answer) ∨
    (∃ i, d = .instr (.rd i) ∧ t = s.respond (s.readReg i)) ∨
    (d = .instr .init ∧ t = (s.clear .type).answer) ∨
    (isGated d = true ∧ s.err ≠ 0#4 ∧ t = s.answer) ∨
    (isGated d = true ∧ s.err = 0#4 ∧
      (IllegalCase d s t ∨ LoadCase d s t ∨ DataCase d s t ∨ FinalCase d s t ∨ CheckCase d s t)) := by
  have gate : ∀ {P : Prop}, isGated d = true →
      (P → IllegalCase d s t ∨ LoadCase d s t ∨ DataCase d s t ∨ FinalCase d s t ∨ CheckCase d s t) →
      (s.err ≠ 0#4 ∧ t = s.answer) ∨ (s.err = 0#4 ∧ P) →
      (isGated d = true ∧ s.err ≠ 0#4 ∧ t = s.answer) ∨
      (isGated d = true ∧ s.err = 0#4 ∧
        (IllegalCase d s t ∨ LoadCase d s t ∨ DataCase d s t ∨ FinalCase d s t ∨ CheckCase d s t)) := by
    rintro P hg hP (h | ⟨he, h⟩)
    · exact .inl ⟨hg, h⟩
    · exact .inr ⟨hg, he, hP h⟩
  match d, h with
  | .illegal op, h =>
    refine .inr (.inr (.inr (gate rfl .inl ?_)))
    rcases gated_cases h with ⟨he, h⟩ | h
    · exact .inr ⟨he, op, rfl, (raiseErr_eq_next.mp h).symm⟩
    · exact .inl h
  | .instr .nop, h => exact .inl ⟨rfl, (finish_eq_next.mp h).symm⟩
  | .instr (.rd i), h => exact .inr (.inl ⟨i, rfl, (Host.Outcome.next.inj h).symm⟩)
  | .instr .init, h => exact .inr (.inr (.inl ⟨rfl, (finish_eq_next.mp h).symm⟩))
  | .instr (.ldtype ty), h => exact .inr (.inr (.inr (gate rfl (.inr ∘ .inl) (execLdtype_cases h))))
  | .instr (.ldtypet ty), h => exact .inr (.inr (.inr (gate rfl (.inr ∘ .inl) (execLdtypet_cases h))))
  | .instr (.data1 v), h =>
    exact .inr (.inr (.inr (gate rfl (.inr ∘ .inr ∘ .inl)
      (dataCase_of_absorbPayload (i := .data1 v) (n := 1) rfl (by omega) h))))
  | .instr (.data2 v), h =>
    exact .inr (.inr (.inr (gate rfl (.inr ∘ .inr ∘ .inl)
      (dataCase_of_absorbPayload (i := .data2 v) (n := 2) rfl (by omega) h))))
  | .instr (.data3 v), h =>
    exact .inr (.inr (.inr (gate rfl (.inr ∘ .inr ∘ .inl)
      (dataCase_of_absorbPayload (i := .data3 v) (n := 3) rfl (by omega) h))))
  | .instr (.data4 v), h =>
    exact .inr (.inr (.inr (gate rfl (.inr ∘ .inr ∘ .inl)
      (dataCase_of_absorbPayload (i := .data4 v) (n := 4) rfl (by omega) h))))
  | .instr .final, h =>
    exact .inr (.inr (.inr (gate rfl (.inr ∘ .inr ∘ .inr ∘ .inl) (execFinal_cases h))))
  | .instr (.check c), h =>
    exact .inr (.inr (.inr (gate rfl (.inr ∘ .inr ∘ .inr ∘ .inr) (execCheck_cases h))))

/-- No command touches what the host does next. -/
theorem execDecoded_inputs (h : execDecoded d s = .next t) : t.inputs = s.inputs := by
  rcases execDecoded_cases h with ⟨-, ht⟩ | ⟨i, -, ht⟩ | ⟨-, ht⟩ | ⟨-, -, ht⟩ | ⟨-, -, hc⟩
  · simp [ht]
  · simp [ht]
  · simp [ht]
  · simp [ht]
  · rcases hc with ⟨op, -, ht⟩ | ⟨ty, -, ⟨-, ht⟩ | ⟨-, -, -, ht⟩ | ⟨-, -, ht⟩⟩ |
      ⟨i, bs, -, -, -, ⟨-, ht⟩ | ⟨-, -, ht⟩ | ⟨-, -, ht⟩⟩ | ⟨-, ⟨-, ht⟩ | ⟨-, ht⟩⟩ |
      ⟨c, -, ⟨-, ht⟩ | ⟨-, -, ht⟩ | ⟨-, -, ht⟩⟩ <;> simp [ht]

/-- A step uses up exactly the host's first input. -/
theorem step_inputs {x : HostInput} {xs : List HostInput} (h : step { s with inputs := x :: xs } = .next t) :
    t.inputs = xs := by
  rcases step_cases h with ⟨hx, -⟩ | ⟨r, hx, ht⟩ | ⟨r, hx, ht⟩ | ⟨w, r, hx, he⟩
  · simp at hx
  · simp_all
  · simp_all
  · have hi := execDecoded_inputs he
    simp_all

/-- A run over no input. -/
theorem runs_nil : runs [] s t ↔ ({ s with inputs := [] } : State) = t :=
  ⟨fun h => Host.Outcome.next.inj h, fun h => congrArg Host.Outcome.next h⟩

/-- The machine's step is the step of the block. -/
theorem core_step : Sys2Proof.core.step = step := rfl

/-- A run over a first input and the rest is a step and a run. -/
theorem runs_cons {x : HostInput} {xs : List HostInput} :
    runs (x :: xs) s t ↔ ∃ u, step { s with inputs := x :: xs } = .next u ∧ runs xs u t := by
  cases h : step { s with inputs := x :: xs } with
  | next u =>
    have hu : ({ u with inputs := xs } : State) = u := by rw [← step_inputs h]
    have hrun : runs (x :: xs) s t ↔ runs xs u t := by
      simp only [runs, List.length_cons, Host.Core.run, core_step, h, hu]
    rw [hrun]
    refine ⟨fun hr => ⟨u, rfl, hr⟩, ?_⟩
    rintro ⟨v, hv, hr⟩
    obtain rfl := Host.Outcome.next.inj hv
    exact hr
  | fault r => exact r.rec
  | refused r =>
    have hrun : ¬ runs (x :: xs) s t := by
      simp [runs, Host.Core.run, core_step, h]
    simp [hrun]

end Sys2Proof.Machine
end

