-- ==== Sys2Proof/Tests/Slice0.lean ====
section
/-! SUPPORT. Tests. Every expected value is from the spec: the encodings of rule R72, the worked values of `95_test_vectors.md` (named beside each test) and the examples of the rules. After them, one witness for the hypotheses of each statement of Certificates/Slice0/Obligations.lean, clause by clause. -/

namespace Sys2Proof.Tests

open Sys2Proof Sys2Proof.Machine

/-! ### WellFormed refuses an ill-formed operand of each check (rule R78: a number that fits in 8n bits) -/

theorem test_data1_operand_too_wide : (Instr.data1 0x100#32).wellFormed = false := by decide
theorem test_data2_operand_too_wide : (Instr.data2 0x10000#32).wellFormed = false := by decide
theorem test_data3_operand_too_wide : (Instr.data3 0x1000000#32).wellFormed = false := by decide

/-! ### Decoding: words written out from the opcode map (rule R72), 8 opcode bits and 32 argument bits -/

theorem test_decode_nop : decode (0b00000000#8 ++ 0xFFFFFFFF#32) = .instr .nop := by decide
theorem test_decode_init : decode (0b00000001#8 ++ 0x00000000#32) = .instr .init := by decide
theorem test_decode_ldtype : decode (0b00000010#8 ++ 0x52755374#32) = .instr (.ldtype 0x52755374#32) := by decide
theorem test_decode_ldtypet : decode (0b00000011#8 ++ 0x54455354#32) = .instr (.ldtypet 0x54455354#32) := by decide
theorem test_decode_data1 : decode (0b00001000#8 ++ 0xFFFFFF35#32) = .instr (.data1 0x35#32) := by decide
theorem test_decode_data2 : decode (0b00001001#8 ++ 0x00006521#32) = .instr (.data2 0x6521#32) := by decide
theorem test_decode_data3 : decode (0b00001010#8 ++ 0xFF353637#32) = .instr (.data3 0x353637#32) := by decide
theorem test_decode_data4 : decode (0b00001011#8 ++ 0x68656C6C#32) = .instr (.data4 0x68656C6C#32) := by decide
theorem test_decode_final : decode (0b00010000#8 ++ 0x00000001#32) = .instr .final := by decide
theorem test_decode_check : decode (0b00010001#8 ++ 0xABD1D84E#32) = .instr (.check 0xABD1D84E#32) := by decide
theorem test_decode_rd : decode (0b00100000#8 ++ 0xFFFFFFFE#32) = .instr (.rd 6#3) := by decide
theorem test_decode_illegal : decode 0x0C00000000#40 = .illegal 0x0C#8 := by decide
theorem test_decode_table_word : decodeTableWord 40 0x0252755374 = some (.ldtype 0x52755374#32) := by decide
theorem test_encode_data2 : encode (.data2 0x6521#32) = 0x0900006521#40 := by decide

/-! ### The CRC arithmetic -/

/-- V-STEP-1. -/
theorem test_crc_step_of_zero_byte : crcByte 0xFFFFFFFF#32 0x00#8 = 0x2DFD1072#32 := by decide +kernel
/-- V-STEP-7. -/
theorem test_crc_step_mixed : crcByte 0x12345678#32 0xAB#8 = 0x1FC8B738#32 := by decide +kernel
/-- V-CRC-9, "TESThello". -/
theorem test_crc_TESThello :
    crc32 [0x54#8, 0x45#8, 0x53#8, 0x54#8, 0x68#8, 0x65#8, 0x6C#8, 0x6C#8, 0x6F#8] = 0xDDDA200D#32 := by decide +kernel
/-- W6: the 46 bytes of the worked example have the source's checksum 2882656334. -/
theorem test_crc_W6 :
    crc32 ([0x52#8, 0x75#8, 0x53#8, 0x74#8] ++
      [0x54#8, 0x68#8, 0x69#8, 0x73#8, 0x20#8, 0x69#8, 0x73#8, 0x20#8, 0x77#8, 0x68#8, 0x65#8, 0x72#8, 0x65#8, 0x20#8] ++
      [0x79#8, 0x6F#8, 0x75#8, 0x72#8, 0x20#8, 0x73#8, 0x65#8, 0x63#8, 0x72#8, 0x65#8, 0x74#8, 0x20#8, 0x6D#8, 0x65#8] ++
      [0x73#8, 0x73#8, 0x61#8, 0x67#8, 0x65#8, 0x20#8, 0x77#8, 0x69#8, 0x6C#8, 0x6C#8, 0x20#8, 0x62#8, 0x65#8, 0x21#8]) =
    2882656334#32 := by decide +kernel

/-! ### The decoder (V-FLG-2, V-FLG-3, V-FLG-6, V-FLG-8, V-FLG-10, V-FLG-14) -/

theorem test_flags_RuSt : flagBits 0x52755374#32 = 0x3D#6 := by decide
theorem test_flags_Rust : flagBits 0x52757374#32 = 0x29#6 := by decide
theorem test_flags_Ru1t : flagBits 0x52753174#32 = 0x09#6 := by decide
theorem test_flags_bLOb : flagBits 0x624C4F62#32 = 0x3E#6 := by decide
theorem test_flags_at_signs : flagBits 0x40404040#32 = 0x17#6 := by decide
theorem test_flags_spaces : flagBits 0x20202020#32 = 0x08#6 := by decide

/-! ### One step of each command -/

/-- The state of a block in a phase, with a register, a length and an error code; the other elements as after reset. -/
def block (p : Phase) (crc len : Word) (err : BitVec 4) : State :=
  { State.reset with phase := p, crc := crc, len := len, err := err }

/-- What one step on a command word leaves: the response, CRC, LEN, TYPE and PHASE. -/
def after (s : State) (w : CmdWord) : Option (Option Word × Word × Word × Word × Phase) :=
  match step { s with inputs := [.command w] } with
  | .next t => some (t.rsp, t.crc, t.len, t.typeCode, t.phase)
  | .fault _ => none
  | .refused _ => none

/-- V-LDT-1. -/
theorem test_ldtype_RuSt : after (block .type 0xFFFFFFFF#32 0#32 0#4) 0x0252755374#40 =
    some (some 0x02#32, 0x2B7BF6C3#32, 0#32, 0x52755374#32, .data) := by decide +kernel
/-- V-LDT-6. -/
theorem test_ldtype_in_idle : after State.reset 0x0252755374#40 =
    some (some 0x30#32, 0xFFFFFFFF#32, 0#32, 0#32, .idle) := by decide +kernel
/-- V-TXT-2. -/
theorem test_ldtypet_AZaz : after (block .type 0xFFFFFFFF#32 0#32 0#4) 0x03415A617A#40 =
    some (some 0x02#32, 0x500E7619#32, 0#32, 0x415A617A#32, .data) := by decide +kernel
/-- V-TXT-6. -/
theorem test_ldtypet_one_past_z : after (block .type 0xFFFFFFFF#32 0#32 0#4) 0x03415A617B#40 =
    some (some 0x11#32, 0xFFFFFFFF#32, 0#32, 0#32, .type) := by decide +kernel
/-- V-DAT-6. -/
theorem test_data1_ignores_high_bits : after (block .data 0x641C1F5C#32 0#32 0#4) 0x08FFFFFF35#40 =
    some (some 0x02#32, 0x340AC5E3#32, 1#32, 0#32, .data) := by decide +kernel
/-- V-DAT-4. -/
theorem test_data2_order : after (block .data 0xAFFC9660#32 3#32 0#4) 0x0900003839#40 =
    some (some 0x02#32, 0x340BC6D9#32, 5#32, 0#32, .data) := by decide +kernel
/-- V-OVF-3. -/
theorem test_data2_overflow_absorbs_nothing : after (block .data 0x2B7BF6C3#32 0xFFFFFFFE#32 0#4) 0x0900000000#40 =
    some (some 0x42#32, 0x2B7BF6C3#32, 0xFFFFFFFE#32, 0#32, .data) := by decide +kernel
/-- V-OVF-5. -/
theorem test_data3_to_the_largest_length : after (block .data 0x2B7BF6C3#32 0xFFFFFFFC#32 0#4) 0x0A00000000#40 =
    some (some 0x02#32, 0x16D8C6BD#32, 0xFFFFFFFF#32, 0#32, .data) := by decide +kernel
/-- V-DAT-7. -/
theorem test_data4_hell : after (block .data 0x11156C47#32 0#32 0#4) 0x0B68656C6C#40 =
    some (some 0x02#32, 0x27C94BD9#32, 4#32, 0#32, .data) := by decide +kernel
/-- V-OVF-4. -/
theorem test_data4_overflow : after (block .data 0x2B7BF6C3#32 0xFFFFFFFC#32 0#4) 0x0B00000000#40 =
    some (some 0x42#32, 0x2B7BF6C3#32, 0xFFFFFFFC#32, 0#32, .data) := by decide +kernel
/-- V-INI-2, and rule R135's example. -/
theorem test_init_clears_error : after (block .done 0x542E27B1#32 42#32 2#4) 0x0100000000#40 =
    some (some 0x01#32, 0xFFFFFFFF#32, 0#32, 0#32, .type) := by decide +kernel
/-- V-NOP-2: the DONE phase without MATCH reads 0x03, the argument is ignored. -/
theorem test_nop_answers_status : after (block .done 0#32 0#32 0#4) 0x00FFFFFFFF#40 =
    some (some 0x03#32, 0#32, 0#32, 0#32, .done) := by decide +kernel
/-- V-RD-6: index 6 from arg[2:0]. -/
theorem test_rd_id : after State.reset 0x20FFFFFFFE#40 =
    some (some 0x50435243#32, 0xFFFFFFFF#32, 0#32, 0#32, .idle) := by decide +kernel
/-- V-RD-5. -/
theorem test_rd_reserved_index : after State.reset 0x2000000007#40 =
    some (some 0#32, 0xFFFFFFFF#32, 0#32, 0#32, .idle) := by decide +kernel
/-- V-ILL-1. -/
theorem test_illegal_raises : after State.reset 0x0400000000#40 =
    some (some 0x50#32, 0xFFFFFFFF#32, 0#32, 0#32, .idle) := by decide +kernel
/-- V-ILL-2: gated, ERR stays 5. -/
theorem test_illegal_gated : after (block .idle 0xFFFFFFFF#32 0#32 5#4) 0xFF00000000#40 =
    some (some 0x50#32, 0xFFFFFFFF#32, 0#32, 0#32, .idle) := by decide +kernel

/-- What one step on a command word leaves: the response, RESULT, MATCH and ERR. -/
def verdict (s : State) (w : CmdWord) : Option (Option Word × Word × Bool × BitVec 4) :=
  match step { s with inputs := [.command w] } with
  | .next t => some (t.rsp, t.result, t.matchFlag, t.err)
  | .fault _ => none
  | .refused _ => none

/-- V-FIN-1. -/
theorem test_final_catalogue_value : verdict (block .data 0x340BC6D9#32 5#32 0#4) 0x1000000000#40 =
    some (some 0x03#32, 0xCBF43926#32, false, 0#4) := by decide +kernel
/-- V-FIN-4. -/
theorem test_final_without_type : verdict (block .type 0xFFFFFFFF#32 0#32 0#4) 0x1000000000#40 =
    some (some 0x31#32, 0#32, false, 3#4) := by decide +kernel
/-- V-CHK-1. -/
theorem test_check_match : verdict { block .done 0x2B7BF6C3#32 0#32 0#4 with result := 0xD484093C#32 } 0x11D484093C#40 =
    some (some 0x07#32, 0xD484093C#32, true, 0#4) := by decide +kernel
/-- V-CHK-3: a failing CHECK after a matching one clears MATCH. -/
theorem test_check_mismatch_clears_match :
    verdict { block .done 0x2B7BF6C3#32 0#32 0#4 with result := 0xD484093C#32, matchFlag := true } 0x11D484093D#40 =
    some (some 0x23#32, 0xD484093C#32, false, 2#4) := by decide +kernel

/-- The step after withFetchWord runs that word, from reset (V-ILL-1, V-NOP-1). -/
theorem test_fetch_word_runs : step (State.reset.withFetchWord 40 0x0000000000) =
    .next { State.reset with rsp := some 0#32 } := rfl

/-! ### Assembler, pseudo-instructions and framing (rules R75, R78, R79, R56) -/

/-- Rule R78's example: `DATA2 "e!"` is `DATA2 0x6521`. -/
theorem test_assemble_string : assemble ['D','A','T','A','2'] [.str ['e','!']] = some (.data2 0x6521#32) := by decide +kernel
/-- Rule R78's example: `CHECK 2882656334`. -/
theorem test_assemble_line : assembleLine ['C','H','E','C','K',' ','2','8','8','2','6','5','6','3','3','4'] =
    some (.check 0xABD1D84E#32) := by decide +kernel
/-- Rule R78: an index that does not fit is refused. -/
theorem test_assemble_refuses_index : assemble ['R','D'] [.num 8] = none := by decide
/-- Log 16 (the model's choice): the first double quote closes the string, and what follows it refuses the line. -/
theorem test_assemble_quote_in_string :
    assembleLine (['D','A','T','A','2',' ', quoteChar, 'e', quoteChar, quoteChar]) = none := by decide +kernel
/-- Rule R78's `.illegal` form, on the word of P8. -/
theorem test_disassemble_illegal : disassemble 0x0400000000#40 =
    ['.','i','l','l','e','g','a','l',' ','0','x','0','4','0','0','0','0','0','0','0','0'] := by decide +kernel
/-- Rule R79 and P5: the payload "hello" is one DATA4 and one DATA1. -/
theorem test_pseudo_data : pseudoData [0x68#8, 0x65#8, 0x6C#8, 0x6C#8, 0x6F#8] =
    [.data4 0x68656C6C#32, .data1 0x6F#32] := by decide +kernel
/-- P5: the wire bytes of the chunk "TEST" "hello". -/
theorem test_serialise_TEST : serialise 5#32 0x54455354#32 0xDDDA200D#32 [0x68#8, 0x65#8, 0x6C#8, 0x6C#8, 0x6F#8] =
    [0x00#8, 0x00#8, 0x00#8, 0x05#8, 0x54#8, 0x45#8, 0x53#8, 0x54#8, 0x68#8, 0x65#8, 0x6C#8, 0x6C#8, 0x6F#8,
     0xDD#8, 0xDA#8, 0x20#8, 0x0D#8] := by decide +kernel
/-- W8: a buffer of 11 bytes is Truncated. -/
theorem test_truncated : checkProgram (List.replicate 11 0#8) = none := by decide +kernel

/-! ### Witnesses: states and operands that meet the hypotheses of the statements -/

theorem witness_RstDrops : runs ([.command 0x0100000000#40] ++ [.rst]) State.reset State.reset := rfl

theorem witness_ValidDependsOnBitThirteenAlone :
    (0x00002000#32).getLsbD 13 = (0xFFFFFFFF#32).getLsbD 13 ∧ (0x00002000#32).getLsbD 13 ≠ (0xFFFFDFFF#32).getLsbD 13 := by
  decide

theorem witness_ReadMapShowsAllState : ∀ i : BitVec 3,
    (block .data 1#32 2#32 0#4).readReg i = { block .data 1#32 2#32 0#4 with rsp := some 5#32 }.readReg i := by
  decide +kernel

theorem witness_IllegalOpcodeRaises : decode 0x0400000000#40 = .illegal 0x04#8 ∧ decode 0xFF00000000#40 = .illegal 0xFF#8 ∧
    State.reset.err = 0#4 ∧ (block .idle 0#32 0#32 5#4).err ≠ 0#4 := by decide

theorem witness_gate_open_and_shut : (block .type 0#32 0#32 0#4).err = 0#4 ∧ (block .type 0#32 0#32 0#4).phase = .type ∧
    (block .idle 0#32 0#32 0#4).err = 0#4 ∧ (block .idle 0#32 0#32 0#4).phase ≠ .type ∧ (block .type 0#32 0#32 1#4).err ≠ 0#4 := by
  decide

theorem witness_LdtypeLoadsRawType : (block .type 0xFFFFFFFF#32 0#32 0#4).err = 0#4 ∧
    (block .type 0xFFFFFFFF#32 0#32 0#4).phase = .type ∧ (block .done 0#32 0#32 0#4).phase ≠ .type ∧
    (block .type 0#32 0#32 15#4).err ≠ 0#4 := by decide

theorem witness_LdtypetLoadsLetters_accepted : alpha ((0x415A617A#32).extractLsb' 24 8) = true ∧
    alpha ((0x415A617A#32).extractLsb' 16 8) = true ∧ alpha ((0x415A617A#32).extractLsb' 8 8) = true ∧
    alpha ((0x415A617A#32).extractLsb' 0 8) = true ∧ (block .type 0#32 0#32 0#4).phase = .type ∧
    (block .type 0#32 0#32 0#4).err = 0#4 := by decide

theorem witness_LdtypetLoadsLetters_rejected : alpha ((0x405A617A#32).extractLsb' 24 8) = false ∧
    alpha ((0x415B617A#32).extractLsb' 16 8) = false ∧ alpha ((0x415A607A#32).extractLsb' 8 8) = false ∧
    alpha ((0x415A617B#32).extractLsb' 0 8) = false ∧ (block .type 0#32 0#32 0#4).phase = .type ∧
    (block .type 0#32 0#32 0#4).err = 0#4 ∧ (block .data 0#32 0#32 0#4).phase ≠ .type ∧
    (block .data 0#32 0#32 0#4).err = 0#4 ∧ (block .type 0#32 0#32 1#4).err ≠ 0#4 := by decide

/-- The hypotheses of DataOneAbsorbsOneByte to DataFourAbsorbsFourBytes, clause by clause, at the boundary lengths. -/
theorem witness_Data_completes : ∀ l ∈ [0xFFFFFFFE#32, 0xFFFFFFFD#32, 0xFFFFFFFC#32, 0xFFFFFFFB#32],
    (block .data 0#32 l 0#4).err = 0#4 ∧ (block .data 0#32 l 0#4).phase = .data ∧
    (block .data 0#32 l 0#4).len.toNat ≤ l.toNat := by simp [block]
theorem witness_Data_overflows : (0xFFFFFFFE < (block .data 0#32 0xFFFFFFFF#32 0#4).len.toNat) ∧
    (0xFFFFFFFD < (block .data 0#32 0xFFFFFFFE#32 0#4).len.toNat) ∧
    (0xFFFFFFFC < (block .data 0#32 0xFFFFFFFD#32 0#4).len.toNat) ∧
    (0xFFFFFFFB < (block .data 0#32 0xFFFFFFFC#32 0#4).len.toNat) ∧
    ∀ l : Word, (block .data 0#32 l 0#4).err = 0#4 ∧ (block .data 0#32 l 0#4).phase = .data := by simp [block]
theorem witness_Data_out_of_phase : (block .done 0#32 0#32 0#4).err = 0#4 ∧ (block .done 0#32 0#32 0#4).phase ≠ .data ∧
    (block .data 0#32 0#32 4#4).err ≠ 0#4 := by decide

theorem witness_DataCommonBehaviour : payloadOf (.data2 0x3839#32) = some [0x38#8, 0x39#8] ∧
    (block .data 0#32 0xFFFFFFFD#32 0#4).len.toNat + 2 ≤ 0xFFFFFFFF ∧
    0xFFFFFFFF < (block .data 0#32 0xFFFFFFFE#32 0#4).len.toNat + 2 ∧
    (∀ l : Word, (block .data 0#32 l 0#4).err = 0#4 ∧ (block .data 0#32 l 0#4).phase = .data) ∧
    (block .type 0#32 0#32 0#4).phase ≠ .data ∧ (block .data 0#32 0#32 4#4).err ≠ 0#4 :=
  ⟨by decide +kernel, by simp [block], by simp [block], by simp [block], by decide, by decide⟩

theorem witness_FinalCapturesChecksum : (block .data 0#32 0#32 0#4).err = 0#4 ∧ (block .data 0#32 0#32 0#4).phase = .data ∧
    (block .type 0#32 0#32 0#4).phase ≠ .data ∧ (block .data 0#32 0#32 3#4).err ≠ 0#4 := by decide

theorem witness_CheckComparesResult : (block .done 0#32 0#32 0#4).err = 0#4 ∧ (block .done 0#32 0#32 0#4).phase = .done ∧
    (block .done 0#32 0#32 0#4).result = 0#32 ∧ (block .done 0#32 0#32 0#4).result ≠ 1#32 ∧
    (block .data 0#32 0#32 0#4).phase ≠ .done ∧ (block .done 0#32 0#32 2#4).err ≠ 0#4 := by decide

theorem witness_SingleBitChangeIsDetected :
    bytesBe 0x52755374#32 4 ++ [] = [0x52#8, 0x75#8] ++ 0x53#8 :: [0x74#8] ∧
    bytesBe 0x52757374#32 4 ++ [] = [0x52#8, 0x75#8] ++ (0x53#8 ^^^ (1#8 <<< (5 : Fin 8).val)) :: [0x74#8] := by
  decide +kernel

theorem witness_DecodeOfEncode : (Instr.data1 0xFF#32).wellFormed = true ∧ (Instr.data2 0xFFFF#32).wellFormed = true ∧
    (Instr.data3 0xFFFFFF#32).wellFormed = true ∧ (Instr.rd 7#3).wellFormed = true := by decide

theorem witness_EncodeOfDecode : decode 0x20FFFFFFFE#40 = .instr (.rd 6#3) := by decide

theorem witness_IgnoredArgumentBitsHaveNoEffect : decode 0x0800000035#40 = .instr (.data1 0x35#32) ∧
    cmdOp 0x08FFFFFF35#40 = cmdOp 0x0800000035#40 ∧
    cmdArg 0x08FFFFFF35#40 &&& (Instr.data1 0x35#32).usedArg = cmdArg 0x0800000035#40 &&& (Instr.data1 0x35#32).usedArg := by
  decide

theorem witness_StepRunsTheDecodedCommand : decode 0x1000000000#40 = .instr .final ∧ decode 0x2100000000#40 = .illegal 0x21#8 := by
  decide

theorem witness_EveryCommandIsAnswered : decode 0x2000000001#40 = .instr (.rd 1#3) ∧
    (∀ i, decode 0x0100000000#40 ≠ .instr (.rd i)) ∧ State.reset.rstPort = false := by decide

/-- While `rst` is 1 the port has no response, though one is pending (rule R230, log 15). -/
theorem test_rst_hides_pending_response :
    ({ State.reset with rsp := some 7#32, inputs := [.rst] } : State).rspData = none := by decide

theorem witness_HandshakePorts : ({ State.reset with inputs := [] } : State).rstPort = false := by decide

theorem witness_GateIgnoresGatedCommands : (block .done 0#32 0#32 2#4).err ≠ 0#4 ∧ isGated (.illegal 0xFF#8) = true ∧
    isGated (.instr (.check 0#32)) = true ∧ isGated (.instr (.rd 0#3)) = false := by decide

theorem witness_PhaseDecidesSequenceError : State.reset.err = 0#4 ∧ State.reset.phase.accepts (.check 0#32) = false ∧
    State.reset.phase.accepts .init = true ∧ (block .data 0#32 0#32 0#4).phase.accepts (.data1 0#32) = true := by decide

theorem witness_PhaseMovesInOrder :
    ∃ t, execDecoded (.instr (.ldtype 0#32)) (block .type 0#32 0#32 0#4) = .next t ∧ t.phase = .data := ⟨_, rfl, rfl⟩

theorem witness_RaisingWritesOnlyErr_check :
    ∃ t, execDecoded (.instr (.check 1#32)) (block .done 0#32 0#32 0#4) = .next t ∧ t.err ≠ (block .done 0#32 0#32 0#4).err :=
  ⟨_, rfl, by decide⟩
theorem witness_RaisingWritesOnlyErr_other :
    ∃ t, execDecoded (.illegal 0x04#8) State.reset = .next t ∧ t.err ≠ State.reset.err := ⟨_, rfl, by decide⟩

/-- CRC and LEN, then RESULT and PHASE, then TYPE and PHASE, then MATCH change; then ERR, by each of its five codes. -/
theorem witness_WritersOfEachElement_crc_len : ∃ t,
    execDecoded (.instr (.data1 0#32)) (block .data 0xFFFFFFFF#32 0#32 0#4) = .next t ∧ t.crc ≠ 0xFFFFFFFF#32 ∧ t.len ≠ 0#32 :=
  ⟨_, rfl, by decide +kernel, by decide +kernel⟩
theorem witness_WritersOfEachElement_result : ∃ t,
    execDecoded (.instr .final) (block .data 0#32 0#32 0#4) = .next t ∧ t.result ≠ 0#32 ∧ t.phase ≠ .data :=
  ⟨_, rfl, by decide +kernel, by decide +kernel⟩
theorem witness_WritersOfEachElement_type : ∃ t,
    execDecoded (.instr (.ldtype 1#32)) (block .type 0#32 0#32 0#4) = .next t ∧ t.typeCode ≠ 0#32 ∧ t.phase ≠ .type :=
  ⟨_, rfl, by decide +kernel, by decide +kernel⟩
theorem witness_WritersOfEachElement_match : ∃ t,
    execDecoded (.instr (.check 0#32)) (block .done 0#32 0#32 0#4) = .next t ∧ t.matchFlag ≠ false := ⟨_, rfl, by decide +kernel⟩

theorem witness_WritersOfEachElement_err : ∃ a b c d e,
    execDecoded (.illegal 0x04#8) State.reset = .next a ∧ a.err = 5#4 ∧
    execDecoded (.instr .final) State.reset = .next b ∧ b.err = 3#4 ∧
    execDecoded (.instr (.ldtypet 0#32)) (block .type 0#32 0#32 0#4) = .next c ∧ c.err = 1#4 ∧
    execDecoded (.instr (.data1 0#32)) (block .data 0#32 0xFFFFFFFF#32 0#4) = .next d ∧ d.err = 4#4 ∧
    execDecoded (.instr (.check 1#32)) (block .done 0#32 0#32 0#4) = .next e ∧ e.err = 2#4 :=
  ⟨_, _, _, _, _, rfl, by decide +kernel, rfl, by decide +kernel, rfl, by decide +kernel, rfl, by decide +kernel,
    rfl, by decide +kernel⟩

theorem witness_LengthNeverWraps : ∃ t, exec (.data4 0#32) (block .data 0#32 0xFFFFFFFB#32 0#4) = .next t ∧
    t.len = 0xFFFFFFFF#32 := ⟨_, rfl, by decide +kernel⟩

theorem witness_ErrorSticksUntilInitOrRst : (block .data 0#32 0#32 4#4).err ≠ 0#4 ∧
    (∀ x ∈ [HostInput.command 0x0B00000000#40, .takeResponse, .command 0x2000000000#40], clearsErr x = false) ∧
    clearsErr .rst = true ∧ clearsErr (.command 0x01FFFFFFFF#40) = true := by decide +kernel

theorem witness_RepeatedCommands_idempotent :
    ∃ t, execDecoded (.instr (.check 1#32)) (block .done 0#32 0#32 0#4) = .next t ∧ t.err ≠ 0#4 := ⟨_, rfl, by decide⟩
theorem witness_RepeatedCommands_refused :
    ∃ t, execDecoded (.instr .final) (block .data 0#32 0#32 0#4) = .next t ∧ t.err = 0#4 := ⟨_, rfl, rfl⟩

/-- A state in DONE with a captured checksum meets the invariant, and steps. -/
theorem witness_EveryStepKeepsTheInvariant :
    let s : State := { block .done 0xFFFFFFFE#32 7#32 0#4 with result := 1#32, inputs := [.command 0x1100000001#40] }
    s.Inv ∧ ∃ t, step s = .next t ∧ t.matchFlag = true :=
  ⟨by constructor <;> decide, _, rfl, rfl⟩

theorem witness_PayloadSplitDoesNotMatter :
    payloadBytes [.data4 0x35363738#32, .data1 0x39#32] = some [0x35#8, 0x36#8, 0x37#8, 0x38#8, 0x39#8] ∧
    payloadBytes [.data3 0x353637#32, .data2 0x3839#32] = some [0x35#8, 0x36#8, 0x37#8, 0x38#8, 0x39#8] ∧
    (block .data 0#32 0xFFFFFFFA#32 0#4).err = 0#4 ∧ (block .data 0#32 0xFFFFFFFA#32 0#4).phase = .data ∧
    (block .data 0#32 0xFFFFFFFA#32 0#4).len.toNat + 5 ≤ 0xFFFFFFFF := by decide +kernel

/-- A number at each side of the bound, a string that fits, one too long, one that is not ASCII, a name that is none. -/
theorem witness_AssembledCommandsAreWellFormed :
    assemble ['D','A','T','A','1'] [.num 255] = some (.data1 0xFF#32) ∧ (255 < 2 ^ (8 * 1) ∧ 2 ^ (8 * 1) ≤ 256) ∧
    (['e','!'].length = 2 ∧ ∀ c ∈ ['e','!'], c.toNat < 128) ∧ ['e','!','!'].length ≠ 2 ∧
    (∃ c ∈ ['e', Char.ofNat 233], 128 ≤ c.toNat) ∧ (7 < 8 ∧ 8 ≤ 8) ∧ ['P','C'] ∉ regNames.map Prod.fst :=
  ⟨by decide +kernel, by omega, by simp, by simp, ⟨_, List.mem_cons_of_mem _ (List.mem_singleton.mpr rfl), by decide⟩,
    by omega, by decide⟩
theorem witness_AssembledCommandsAreWellFormed_bytes : (['D','A','T','A','1'], 1, Instr.data1) ∈ byteCommands := by
  simp [byteCommands]
/-- The boundary of CHECK's number. -/
theorem witness_AssembledCommandsAreWellFormed_check : 0xFFFFFFFF < 2 ^ 32 ∧ 2 ^ 32 ≤ 0x100000000 := by omega

theorem witness_PrintedCommandsAssembleAgain : (Instr.data3 0xABCDEF#32).wellFormed = true ∧
    assembleLine (instrText (.rd 5#3)) = some (.rd 5#3) ∧
    assembleLine (instrText (.data3 0xABCDEF#32)) = some (.data3 0xABCDEF#32) := by decide +kernel

theorem witness_ChunkSequenceComputesChecksum : payloadBytes [.data1 0x39#32] = some [0x39#8] ∧
    allAlpha 0x54455354#32 = true ∧ [0x39#8].length ≤ 0xFFFFFFFF := by decide +kernel

theorem witness_VerifyAcceptsExactlyTheChecksum :
    0xAE426082#32 = crc32 (bytesBe 0x49454E44#32 4 ++ []) ∧ 0#32 ≠ crc32 (bytesBe 0x49454E44#32 4 ++ []) ∧
    ([] : List Byte).length ≤ 0xFFFFFFFF := by decide +kernel

theorem witness_BuiltChunkPassesItsCheck : [0x68#8, 0x65#8].length ≤ 0xFFFFFFFF := by decide

end Sys2Proof.Tests
end

-- ==== Proofs: 00_scope.md (rules R9, R11) ====
section

namespace Sys2Proof.Machine

variable {s t : State} {d : Decoded} {e : ErrCode}

/-! ### The letter ranges -/

/-- A closed range of bytes is the range of their numbers. -/
theorem byteRange_iff (lo hi b : Byte) :
    (decide (lo ≤ b) && decide (b ≤ hi)) = true ↔ lo.toNat ≤ b.toNat ∧ b.toNat ≤ hi.toNat := by
  simp only [Bool.and_eq_true, decide_eq_true_eq, BitVec.le_def]

/-- Settles O8: each disjunct of `alpha` is a closed range of bytes. -/
theorem alphaIsTheLetterRanges : Obligations.AlphaIsTheLetterRanges := by
  intro b
  rw [alpha, Bool.or_eq_true, byteRange_iff, byteRange_iff]
  rfl

/-! ### What a raise writes -/

/-- The frame of a raise from ERR = 0: the code and the response, nothing else (rule R204). -/
theorem recordErr_answer_frame (h : s.err = 0#4) (ht : t = (s.recordErr e).answer) :
    t = { s with err := e.code, rsp := some t.status } := by
  have hrec : s.recordErr e = { s with err := e.code } := if_pos h
  rw [ht, hrec]
  rfl

/-- A raise from ERR = 0 with a code other than E_CHECKSUM: ERR holds another code than 2, and no other element changes. -/
theorem recordErr_answer_writes_only_err (h : s.err = 0#4) (hc : e.code ≠ 2#4) (ht : t = (s.recordErr e).answer) :
    t.err ≠ 2#4 ∧ t = { s with err := t.err, rsp := some t.status } := by
  have herr : t.err = e.code := by simp [ht, State.recordErr_err_of_zero h]
  exact ⟨herr ▸ hc, herr ▸ recordErr_answer_frame h ht⟩

/-- A command other than INIT that changes ERR has raised: from ERR = 0, and either it is a failing CHECK, which clears MATCH
before it raises E_CHECKSUM, or it does nothing but raise another code (rules R38, R145, R204). -/
theorem execDecoded_raise_cases (h : execDecoded d s = .next t) (herr : t.err ≠ s.err) (hinit : d ≠ .instr .init) :
    s.err = 0#4 ∧
      ((∃ c, d = .instr (.check c) ∧ t = ((s.setMatch false).recordErr .checksum).answer) ∨
        ∃ e : ErrCode, e.code ≠ 2#4 ∧ t = (s.recordErr e).answer) := by
  rcases execDecoded_cases h with ⟨-, ht⟩ | ⟨i, -, ht⟩ | ⟨hd, -⟩ | ⟨-, -, ht⟩ | ⟨-, h0, hc⟩
  · exact absurd (by simp [ht]) herr
  · exact absurd (by simp [ht]) herr
  · exact absurd hd hinit
  · exact absurd (by simp [ht]) herr
  · refine ⟨h0, ?_⟩
    rcases hc with ⟨op, -, ht⟩ | ⟨ty, -, hload⟩ | ⟨i, bs, -, -, -, hdata⟩ | ⟨-, hfinal⟩ | ⟨c, hd, hcheck⟩
    · exact .inr ⟨.illegalOp, by decide, ht⟩
    · rcases hload with ⟨-, ht⟩ | ⟨-, -, -, ht⟩ | ⟨-, -, ht⟩
      · exact .inr ⟨.sequence, by decide, ht⟩
      · exact .inr ⟨.invalidType, by decide, ht⟩
      · exact absurd (by simp [ht]) herr
    · rcases hdata with ⟨-, ht⟩ | ⟨-, -, ht⟩ | ⟨-, -, ht⟩
      · exact .inr ⟨.sequence, by decide, ht⟩
      · exact .inr ⟨.lengthOvf, by decide, ht⟩
      · exact absurd (by simp [ht]) herr
    · rcases hfinal with ⟨-, ht⟩ | ⟨-, ht⟩
      · exact .inr ⟨.sequence, by decide, ht⟩
      · exact absurd (by simp [ht]) herr
    · rcases hcheck with ⟨-, ht⟩ | ⟨-, -, ht⟩ | ⟨-, -, ht⟩
      · exact .inr ⟨.sequence, by decide, ht⟩
      · exact absurd (by simp [ht]) herr
      · exact .inl ⟨c, hd, ht⟩

/-- Settles O40: the inversion of a raise, then the frame of each kind of raise. -/
theorem raisingWritesOnlyErr : Obligations.RaisingWritesOnlyErr := by
  intro d s t h herr hinit
  obtain ⟨h0, ⟨c, hd, ht⟩ | ⟨e, he, ht⟩⟩ := execDecoded_raise_cases h herr hinit
  · exact ⟨h0, .inl ⟨c, hd, recordErr_answer_frame (by simpa using h0) ht⟩⟩
  · exact ⟨h0, .inr (recordErr_answer_writes_only_err h0 he ht)⟩

end Sys2Proof.Machine
end

-- ==== Proofs: 10_state.md (rules R20 to R38) ====
section

namespace Sys2Proof.Machine

variable {s t : State} {d : Decoded} {e : ErrCode} {p : Phase} {body : State → Result} {ty : Word} {bs : List Byte}

/-! ### The effect of a command word on the seven elements -/

/-- The event that makes a command raise each code, where ERR is 0 (rules R201, R206). -/
def RaiseCause (d : Decoded) (s : State) : ErrCode → Prop
  | .none => False
  | .illegalOp => ∃ op, d = .illegal op
  | .sequence => ∃ i, d = .instr i ∧ s.phase.accepts i = false
  | .invalidType => s.phase = .type ∧ ∃ ty, d = .instr (.ldtypet ty) ∧ allAlpha ty = false
  | .lengthOvf => s.phase = .data ∧
      ∃ i bs, d = .instr i ∧ payloadOf i = some bs ∧ bs.length ≤ 4 ∧ 0xFFFFFFFF < s.len.toNat + bs.length
  | .checksum => s.phase = .done ∧ ∃ c, d = .instr (.check c) ∧ s.result ≠ c

/-- What a command word does to the seven elements: nothing, one raise, or the write of its family (rule R38). -/
inductive Effect (d : Decoded) (s t : State) : Prop
  | keeps (ht : sameElements t s)
  | clears (hd : d = .instr .init) (ht : t = (s.clear .type).answer)
  | raises (e : ErrCode) (he : e ≠ .checksum) (h0 : s.err = 0#4) (hcause : RaiseCause d s e)
      (ht : t = (s.recordErr e).answer)
  | loads (ty : Word) (hd : d = .instr (.ldtype ty) ∨ d = .instr (.ldtypet ty)) (h0 : s.err = 0#4)
      (hp : s.phase = .type) (ht : t = (s.loadType ty).answer)
  | absorbs (i : Instr) (bs : List Byte) (hd : d = .instr i) (hb : payloadOf i = some bs) (h0 : s.err = 0#4)
      (hp : s.phase = .data) (ht : t = (s.absorb bs).answer)
  | captures (hd : d = .instr .final) (h0 : s.err = 0#4) (hp : s.phase = .data) (ht : t = s.capture.answer)
  | agrees (c : Word) (hd : d = .instr (.check c)) (h0 : s.err = 0#4) (hp : s.phase = .done)
      (ht : t = (s.setMatch true).answer)
  | differs (c : Word) (hd : d = .instr (.check c)) (h0 : s.err = 0#4) (hcause : RaiseCause d s .checksum)
      (ht : t = ((s.setMatch false).recordErr .checksum).answer)

/-- The response is no element (rule R36). -/
theorem sameElements_respond (s : State) (v : Word) : sameElements (s.respond v) s :=
  ⟨rfl, rfl, rfl, rfl, rfl, rfl, rfl⟩

/-- Taking the response changes no element, and neither does a host's input being used up (rules R33, R36). -/
theorem sameElements_takeRsp (s : State) (rest : List HostInput) :
    sameElements ({ s with inputs := rest } : State).takeRsp s :=
  ⟨rfl, rfl, rfl, rfl, rfl, rfl, rfl⟩

/-- A DATAn is accepted in DATA only (rule R25). -/
theorem accepts_of_payloadOf {i : Instr} (hb : payloadOf i = some bs) : p.accepts i = (p == .data) := by
  cases i with
  | data1 | data2 | data3 | data4 => rfl
  | nop | init | ldtype | ldtypet | final | check | rd => cases hb

/-- A command refused for its phase: E_SEQUENCE. -/
theorem Effect.of_sequence {i : Instr} (hd : d = .instr i) (h0 : s.err = 0#4) (hacc : s.phase.accepts i = false)
    (ht : t = (s.recordErr .sequence).answer) : Effect d s t :=
  .raises .sequence (by decide) h0 ⟨i, hd, hacc⟩ ht

theorem LoadCase.effect (h0 : s.err = 0#4) (h : LoadCase d s t) : Effect d s t := by
  obtain ⟨ty, hd, ⟨hp, ht⟩ | ⟨hp, hd', hA, ht⟩ | ⟨hp, -, ht⟩⟩ := h
  · rcases hd with hd | hd <;> exact .of_sequence hd h0 (by simpa [Phase.accepts] using hp) ht
  · exact .raises .invalidType (by decide) h0 ⟨hp, ty, hd', hA⟩ ht
  · exact .loads ty hd h0 hp ht

theorem DataCase.effect (h0 : s.err = 0#4) (h : DataCase d s t) : Effect d s t := by
  obtain ⟨i, bs, hd, hb, hn, ⟨hp, ht⟩ | ⟨hp, hl, ht⟩ | ⟨hp, -, ht⟩⟩ := h
  · exact .of_sequence hd h0 (by simpa [accepts_of_payloadOf hb] using hp) ht
  · exact .raises .lengthOvf (by decide) h0 ⟨hp, i, bs, hd, hb, hn, hl⟩ ht
  · exact .absorbs i bs hd hb h0 hp ht

theorem FinalCase.effect (h0 : s.err = 0#4) (h : FinalCase d s t) : Effect d s t := by
  obtain ⟨hd, ⟨hp, ht⟩ | ⟨hp, ht⟩⟩ := h
  · exact .of_sequence hd h0 (by simpa [Phase.accepts] using hp) ht
  · exact .captures hd h0 hp ht

theorem CheckCase.effect (h0 : s.err = 0#4) (h : CheckCase d s t) : Effect d s t := by
  obtain ⟨c, hd, ⟨hp, ht⟩ | ⟨hp, -, ht⟩ | ⟨hp, hc, ht⟩⟩ := h
  · exact .of_sequence hd h0 (by simpa [Phase.accepts] using hp) ht
  · exact .agrees c hd h0 hp ht
  · exact .differs c hd h0 ⟨hp, c, hd, hc⟩ ht

/-- Every command word has one of the effects. -/
theorem execDecoded_effect (h : execDecoded d s = .next t) : Effect d s t := by
  rcases execDecoded_cases h with ⟨-, ht⟩ | ⟨i, -, ht⟩ | ⟨hd, ht⟩ | ⟨-, -, ht⟩ | ⟨-, h0, hc⟩
  · exact .keeps (ht ▸ sameElements_respond s _)
  · exact .keeps (ht ▸ sameElements_respond s _)
  · exact .clears hd ht
  · exact .keeps (ht ▸ sameElements_respond s _)
  · rcases hc with ⟨op, hd, ht⟩ | hc | hc | hc | hc
    · exact .raises .illegalOp (by decide) h0 ⟨op, hd⟩ ht
    · exact hc.effect h0
    · exact hc.effect h0
    · exact hc.effect h0
    · exact hc.effect h0

/-! ### The invariant -/

/-- Every error code is at most 5 (rule R201). -/
theorem ErrCode.code_le (e : ErrCode) : e.code.toNat ≤ 5 := by
  cases e <;> decide

/-- The invariant speaks of the seven elements only. -/
theorem State.Inv.of_sameElements (hs : s.Inv) (ht : sameElements t s) : t.Inv := by
  obtain ⟨hcrc, hresult, htype, hphase, hlen, hmatch, herr⟩ := ht
  have heq : t = { s with rsp := t.rsp, inputs := t.inputs } := by
    rw [← hcrc, ← hresult, ← htype, ← hphase, ← hlen, ← hmatch, ← herr]
  rw [heq]
  exact ⟨hs.errCode, hs.resultBefore, hs.resultAfter, hs.notLoaded, hs.matchAfter, hs.checksumErr, hs.invalidTypeErr,
    hs.lengthErr⟩

theorem State.Inv.answer (hs : s.Inv) : s.answer.Inv :=
  hs.of_sameElements (sameElements_respond s s.status)

/-- A clear into IDLE or TYPE makes the invariant hold, whatever stood before (rules R231, R234). -/
theorem State.clear_inv (s : State) (hp : p ≠ .done) : (s.clear p).Inv where
  errCode := by simp
  resultBefore _ := rfl
  resultAfter h := absurd h hp
  notLoaded _ := ⟨rfl, rfl, rfl⟩
  matchAfter h := by cases h
  checksumErr h := by cases h
  invalidTypeErr h := by cases h
  lengthErr h := by cases h

/-- Recording a code keeps the invariant where the code's own clause holds. -/
theorem State.Inv.recordErr (hs : s.Inv) (h0 : s.err = 0#4)
    (hsum : e.code = 2#4 → s.phase = .done ∧ s.matchFlag = false) (htype : e.code = 1#4 → s.phase = .type)
    (hlen : e.code = 4#4 → s.phase = .data ∧ 0xFFFFFFFF < s.len.toNat + 4) : (s.recordErr e).Inv := by
  have hrec : s.recordErr e = { s with err := e.code } := if_pos h0
  rw [hrec]
  exact ⟨e.code_le, hs.resultBefore, hs.resultAfter, hs.notLoaded, hs.matchAfter, hsum, htype, hlen⟩

/-- Each cause of a code other than E_CHECKSUM gives that code's clause of the invariant. -/
theorem State.Inv.recordErr_of_cause (hs : s.Inv) (h0 : s.err = 0#4) (he : e ≠ .checksum) (hcause : RaiseCause d s e) :
    (s.recordErr e).Inv := by
  apply hs.recordErr h0
  · intro hcode
    cases e <;> simp [ErrCode.code] at hcode he
  · intro hcode
    cases e <;> simp [ErrCode.code] at hcode
    exact hcause.1
  · intro hcode
    cases e <;> simp [ErrCode.code] at hcode
    obtain ⟨hp, i, bs, -, -, hn, hl⟩ := hcause
    exact ⟨hp, by omega⟩

/-- An ERR of 0 meets the clauses about recorded codes. -/
theorem State.inv_of_noErr (h0 : s.err = 0#4) (hbefore : s.phase ≠ .done → s.result = 0#32)
    (hafter : s.phase = .done → s.crc = ~~~s.result)
    (hload : s.phase = .idle ∨ s.phase = .type → s.typeCode = 0#32 ∧ s.crc = 0xFFFFFFFF#32 ∧ s.len = 0#32)
    (hmatch : s.matchFlag = true → s.phase = .done) : s.Inv where
  errCode := by simp [h0]
  resultBefore := hbefore
  resultAfter := hafter
  notLoaded := hload
  matchAfter := hmatch
  checksumErr h := by simp [h0] at h
  invalidTypeErr h := by simp [h0] at h
  lengthErr h := by simp [h0] at h

theorem State.Inv.loadType (hs : s.Inv) (h0 : s.err = 0#4) (hp : s.phase = .type) : (s.loadType ty).Inv := by
  refine State.inv_of_noErr h0 (fun _ => hs.resultBefore (by simp [hp])) (by simp) (by simp) fun hm => ?_
  have hdone := hs.matchAfter hm
  simp [hp] at hdone

theorem State.Inv.absorb (hs : s.Inv) (h0 : s.err = 0#4) (hp : s.phase = .data) : (s.absorb bs).Inv :=
  State.inv_of_noErr h0 hs.resultBefore (by simp [hp]) (by simp [hp]) hs.matchAfter

/-- The captured checksum is the complement of the register (rule R144). -/
theorem State.capture_inv (h0 : s.err = 0#4) : s.capture.Inv := by
  refine inv_of_noErr h0 (by simp) (fun _ => ?_) (by simp) (by simp)
  have hones : crcXorOut = BitVec.allOnes 32 := rfl
  rw [State.capture_crc, State.capture_result, hones, BitVec.xor_allOnes, BitVec.not_not]

theorem State.Inv.setMatch_true (hs : s.Inv) (h0 : s.err = 0#4) (hp : s.phase = .done) : (s.setMatch true).Inv :=
  State.inv_of_noErr h0 hs.resultBefore hs.resultAfter hs.notLoaded fun _ => hp

theorem State.Inv.setMatch_false (hs : s.Inv) (h0 : s.err = 0#4) : (s.setMatch false).Inv :=
  State.inv_of_noErr h0 hs.resultBefore hs.resultAfter hs.notLoaded (by simp)

/-- Every effect keeps the invariant. -/
theorem Effect.keeps_inv (h : Effect d s t) (hs : s.Inv) : t.Inv := by
  cases h with
  | keeps ht => exact hs.of_sameElements ht
  | clears _ ht => exact ht ▸ (s.clear_inv (by decide)).answer
  | raises e he h0 hcause ht => exact ht ▸ (hs.recordErr_of_cause h0 he hcause).answer
  | loads ty _ h0 hp ht => exact ht ▸ (hs.loadType h0 hp).answer
  | absorbs i bs _ _ h0 hp ht => exact ht ▸ (hs.absorb h0 hp).answer
  | captures _ h0 _ ht => exact ht ▸ (State.capture_inv h0).answer
  | agrees c _ h0 hp ht => exact ht ▸ (hs.setMatch_true h0 hp).answer
  | differs c _ h0 hcause ht =>
    obtain ⟨hp, -⟩ := hcause
    have hinv : ((s.setMatch false).recordErr .checksum).Inv :=
      (hs.setMatch_false h0).recordErr h0 (fun _ => ⟨hp, rfl⟩) (by simp [ErrCode.code]) (by simp [ErrCode.code])
    exact ht ▸ hinv.answer

/-- Settles O45: an idle step and a taken response change no element, `rst` clears, and a command has one of the effects. -/
theorem everyStepKeepsTheInvariant : Obligations.EveryStepKeepsTheInvariant := by
  intro s t hs h
  rcases step_cases h with ⟨-, ht⟩ | ⟨rest, -, ht⟩ | ⟨rest, -, ht⟩ | ⟨w, rest, -, hexec⟩
  · exact ht ▸ hs
  · exact ht ▸ (State.clear_inv s (p := .idle) (by decide)).of_sameElements ⟨rfl, rfl, rfl, rfl, rfl, rfl, rfl⟩
  · exact ht ▸ hs.of_sameElements (sameElements_takeRsp s rest)
  · exact (execDecoded_effect hexec).keeps_inv (hs.of_sameElements (sameElements_takeRsp s rest))

/-! ### The fields of STATUS and FLAGS -/

/-- STATUS bit by bit (rule R30). -/
theorem State.status_getLsbD (s : State) (k : Nat) :
    s.status.getLsbD k = if k < 2 then s.phase.code.getLsbD k else if k = 2 then s.matchFlag
      else if k = 3 then false else s.err.getLsbD (k - 4) := by
  have herr : 8 ≤ k → s.err.getLsbD (k - 4) = false := fun hk => BitVec.getLsbD_of_ge _ _ (by omega)
  simp only [State.status, State.statusByte, BitVec.getLsbD_setWidth, BitVec.getLsbD_append, BitVec.getLsbD_ofBool]
  grind

theorem State.status_phaseField (s : State) : s.status.extractLsb' 0 2 = s.phase.code := by
  ext i hi
  simp [← BitVec.getLsbD_eq_getElem, State.status_getLsbD, hi]

theorem State.status_matchBit (s : State) : s.status.getLsbD 2 = s.matchFlag := s.status_getLsbD 2

theorem State.status_errField (s : State) : s.status.extractLsb' 4 4 = s.err := by
  ext i hi
  have hbit : s.status.getLsbD (4 + i) = s.err.getLsbD i := by
    rw [State.status_getLsbD, if_neg (by omega), if_neg (by omega), if_neg (by omega), Nat.add_sub_cancel_left]
  simp [← BitVec.getLsbD_eq_getElem, hbit, hi]

theorem State.status_reserved (s : State) : s.status.extractLsb' 8 24 = 0#24 := by
  ext i hi
  have hbit : s.status.getLsbD (8 + i) = false := by
    rw [State.status_getLsbD, if_neg (by omega), if_neg (by omega), if_neg (by omega)]
    exact BitVec.getLsbD_of_ge _ _ (by omega)
  simp [hbit]

/-- Settles O6: the fields of STATUS, read off its bits. -/
theorem statusLayout : Obligations.StatusLayout := fun s =>
  ⟨s.status_phaseField, s.status_matchBit, s.status_getLsbD 3, s.status_errField, s.status_reserved, rfl, rfl⟩

/-- Bit 5 of a byte, as the predicates of rules R106 to R109 test it. -/
theorem and_bit5_eq_zero (b : Byte) : (b &&& 0x20#8 == 0#8) = !b.getLsbD 5 := by
  have hmask : 0x20#8 = BitVec.twoPow 8 5 := rfl
  rw [hmask, BitVec.and_twoPow]
  cases b.getLsbD 5 <;> rfl

theorem critical_eq (t : Word) : critical t = !t.getLsbD 29 := by
  simp [critical, and_bit5_eq_zero, typeByte0]
theorem isPublic_eq (t : Word) : isPublic t = !t.getLsbD 21 := by
  simp [isPublic, and_bit5_eq_zero, typeByte1]
theorem rsvOk_eq (t : Word) : rsvOk t = !t.getLsbD 13 := by
  simp [rsvOk, and_bit5_eq_zero, typeByte2]
/-- SAFE is the one predicate that is true when its bit is 1 (rule R109). -/
theorem safeToCopy_eq (t : Word) : safeToCopy t = t.getLsbD 5 := by
  simp [safeToCopy, bne, and_bit5_eq_zero, typeByte3]

/-- FLAGS is FLAGS[5:0], zero-extended (rule R31). -/
theorem State.flags_getLsbD (s : State) (k : Nat) : s.flags.getLsbD k = (flagBits s.typeCode).getLsbD k := by
  have hk : 32 ≤ k → (flagBits s.typeCode).getLsbD k = false := fun hk => BitVec.getLsbD_of_ge _ _ (by omega)
  rw [State.flags, BitVec.getLsbD_setWidth]
  grind

/-- FLAGS[5:0] bit by bit: `{ALPHA, VALID, SAFE, RSVOK, PUBLIC, CRITICAL}` (rule R31). -/
theorem flagBits_getLsbD (t : Word) :
    (flagBits t).getLsbD 0 = critical t ∧ (flagBits t).getLsbD 1 = isPublic t ∧ (flagBits t).getLsbD 2 = rsvOk t ∧
      (flagBits t).getLsbD 3 = safeToCopy t ∧ (flagBits t).getLsbD 4 = valid t ∧
      (flagBits t).getLsbD 5 = allAlpha t := by
  simp only [flagBits, BitVec.getLsbD_append, BitVec.getLsbD_ofBool]
  simp

theorem State.flags_reserved (s : State) : s.flags.extractLsb' 6 26 = 0#26 := by
  ext i hi
  simp [← BitVec.getLsbD_eq_getElem, State.flags_getLsbD]

/-- Settles O7: each bit of FLAGS is a predicate, and each predicate a bit of TYPE. -/
theorem flagsFromTypeBits : Obligations.FlagsFromTypeBits := by
  intro s
  obtain ⟨hcritical, hpublic, hrsv, hsafe, hvalid, halpha⟩ := flagBits_getLsbD s.typeCode
  simp only [State.flags_getLsbD]
  refine ⟨?_, ?_, ?_, ?_, ?_, halpha, s.flags_reserved⟩
  · rw [hcritical, critical_eq]
  · rw [hpublic, isPublic_eq]
  · rw [hrsv, rsvOk_eq]
  · rw [hsafe, safeToCopy_eq]
  · rw [hvalid, hrsv, valid]

/-- Zero-extending the low bits of a zero-extended word gives the word. -/
theorem setWidth_low_setWidth {n : Nat} (x : BitVec n) (hn : n ≤ 32) :
    ((x.setWidth 32).extractLsb' 0 n).setWidth 32 = x.setWidth 32 := by
  rw [BitVec.extractLsb'_setWidth_of_le (by omega), BitVec.extractLsb'_eq_self]

/-- Settles O10: the ports carry the bits that STATUS and FLAGS zero-extend. -/
theorem statusAndFlagsPorts : Obligations.StatusAndFlagsPorts := fun s =>
  ⟨setWidth_low_setWidth s.statusByte (by omega), setWidth_low_setWidth (flagBits s.typeCode) (by omega)⟩

/-! ### The read map -/

@[simp] theorem State.readReg_zero : s.readReg 0#3 = s.status := rfl
@[simp] theorem State.readReg_one : s.readReg 1#3 = s.result := rfl
@[simp] theorem State.readReg_two : s.readReg 2#3 = s.crc := rfl
@[simp] theorem State.readReg_three : s.readReg 3#3 = s.typeCode := rfl
@[simp] theorem State.readReg_four : s.readReg 4#3 = s.flags := rfl
@[simp] theorem State.readReg_five : s.readReg 5#3 = s.len := rfl
@[simp] theorem State.readReg_six : s.readReg 6#3 = 0x50435243#32 := rfl
@[simp] theorem State.readReg_seven : s.readReg 7#3 = 0#32 := rfl

/-- The four phases have four codes (rule R25). -/
theorem Phase.ofCode_code (p : Phase) : Phase.ofCode p.code = p := by
  cases p <;> rfl

/-- STATUS shows PHASE, MATCH and ERR (rule R30). -/
theorem fields_of_status_eq (h : s.status = t.status) :
    s.phase = t.phase ∧ s.matchFlag = t.matchFlag ∧ s.err = t.err := by
  have hcode : s.phase.code = t.phase.code := by rw [← s.status_phaseField, h, t.status_phaseField]
  refine ⟨?_, ?_, ?_⟩
  · rw [← s.phase.ofCode_code, hcode, Phase.ofCode_code]
  · rw [← s.status_matchBit, h, t.status_matchBit]
  · rw [← s.status_errField, h, t.status_errField]

/-- Settles O11: four elements are read directly, and the other three are fields of STATUS. -/
theorem readMapShowsAllState : Obligations.ReadMapShowsAllState := by
  intro s t hstatus hresult hcrc htype hlen
  simp only [State.readReg_zero, State.readReg_one, State.readReg_two, State.readReg_three, State.readReg_five]
    at hstatus hresult hcrc htype hlen
  obtain ⟨hphase, hmatch, herr⟩ := fields_of_status_eq hstatus
  exact ⟨hcrc, hresult, htype, hphase, hlen, hmatch, herr⟩

/-- RD answers the read register and writes nothing else (rule R171). -/
theorem exec_rd (i : BitVec 3) (s : State) : exec (.rd i) s = .next { s with rsp := some (s.readReg i) } := rfl

/-- Settles O13: the decoder's case for 0x20, then RD's frame at each index. -/
theorem rdReadsTheMap : Obligations.RdReadsTheMap := by
  refine ⟨fun arg => decode_cmdWord 0x20#8 arg, fun s => ?_⟩
  simp [exec_rd]

/-! ### Every command is answered -/

/-- A meaning that ends every command by answering STATUS (rule R35). -/
def AnswersStatus (body : State → Result) : Prop := ∀ s, ∃ u : State, body s = finish u

theorem AnswersStatus.gated (h : AnswersStatus body) : AnswersStatus (gated body) := by
  intro s
  by_cases he : s.err = 0#4
  · rw [gated_of_noErr he]
    exact h s
  · exact ⟨s, gated_of_err he⟩

theorem AnswersStatus.inPhase (h : AnswersStatus body) : AnswersStatus (inPhase p body) := by
  intro s
  by_cases hp : s.phase = p
  · rw [inPhase_of_eq hp]
    exact h s
  · exact ⟨s.recordErr .sequence, inPhase_of_ne hp⟩

/-- A command that either completes or raises. -/
theorem AnswersStatus.ite {c : State → Prop} [DecidablePred c] {f g : State → Result} (hf : AnswersStatus f)
    (hg : AnswersStatus g) : AnswersStatus fun s => if c s then f s else g s := by
  intro s
  by_cases hc : c s
  · simpa [hc] using hf s
  · simpa [hc] using hg s

theorem answersStatus_finish (f : State → State) : AnswersStatus fun s => finish (f s) := fun s => ⟨f s, rfl⟩

theorem answersStatus_raiseErr (e : ErrCode) (f : State → State) : AnswersStatus fun s => raiseErr e (f s) :=
  fun s => ⟨(f s).recordErr e, rfl⟩

theorem answersStatus_absorbPayload (n : Nat) (arg : Word) : AnswersStatus (absorbPayload n arg) :=
  .gated (.inPhase (.ite (answersStatus_raiseErr .lengthOvf id) (answersStatus_finish _)))

/-- Every command word but RD's answers STATUS, legal or not (rule R35). -/
theorem answersStatus_execDecoded (hrd : ∀ i, d ≠ .instr (.rd i)) : AnswersStatus (execDecoded d) :=
  match d with
  | .illegal _ => .gated (answersStatus_raiseErr .illegalOp id)
  | .instr .nop => answersStatus_finish id
  | .instr .init => answersStatus_finish _
  | .instr (.ldtype _) => .gated (.inPhase (answersStatus_finish _))
  | .instr (.ldtypet _) => .gated (.inPhase (.ite (answersStatus_finish _) (answersStatus_raiseErr .invalidType id)))
  | .instr (.data1 v) => answersStatus_absorbPayload 1 v
  | .instr (.data2 v) => answersStatus_absorbPayload 2 v
  | .instr (.data3 v) => answersStatus_absorbPayload 3 v
  | .instr (.data4 v) => answersStatus_absorbPayload 4 v
  | .instr .final => .gated (.inPhase (answersStatus_finish _))
  | .instr (.check _) => .gated (.inPhase (.ite (answersStatus_finish _) (answersStatus_raiseErr .checksum _)))
  | .instr (.rd i) => absurd rfl (hrd i)

/-- Every command word in every state is answered: with the read register for RD, and otherwise with STATUS after the
command (rules R35, R58). -/
theorem execDecoded_answers (d : Decoded) (s : State) : ∃ t, execDecoded d s = .next t ∧
    (∀ i, d = .instr (.rd i) → t.rsp = some (s.readReg i)) ∧
    ((∀ i, d ≠ .instr (.rd i)) → t.rsp = some t.status) := by
  by_cases hrd : ∃ i, d = .instr (.rd i)
  · obtain ⟨i, rfl⟩ := hrd
    refine ⟨_, rfl, fun j hj => ?_, fun hne => absurd rfl (hne i)⟩
    cases hj
    rfl
  · push Not at hrd
    obtain ⟨u, hu⟩ := answersStatus_execDecoded hrd s
    exact ⟨u.answer, hu, fun i hi => absurd hi (hrd i), fun _ => rfl⟩

/-- While `rst` is not 1, a pending response is on the port, and no command can be accepted (rule R33). -/
theorem handshake_of_pending {v : Word} (hrsp : s.rsp = some v) (hrst : s.rstPort = false) :
    s.rspValid = true ∧ s.rspData = s.rsp ∧ s.cmdReady = false := by
  have hvalid : s.rspValid = true := by simp [State.rspValid, hrst, hrsp]
  exact ⟨hvalid, State.rspData_of_valid hvalid, by simp [State.cmdReady, hrsp]⟩

/-- With no response pending there is none on the port, and while `rst` is not 1 a command can be accepted (rule R33). -/
theorem handshake_of_taken (hrsp : s.rsp = none) :
    s.rspData = none ∧ s.rspValid = false ∧ (s.rstPort = false → s.cmdReady = true) := by
  have hvalid : s.rspValid = false := by simp [State.rspValid, hrsp]
  exact ⟨State.rspData_of_invalid hvalid, hvalid, fun hrst => by simp [State.cmdReady, hrst, hrsp]⟩

/-- While `rst` is 1 neither handshake port is 1 (rule R230). -/
theorem handshake_of_rst (hrst : s.rstPort = true) : s.rspValid = false ∧ s.cmdReady = false := by
  simp [State.rspValid, State.cmdReady, hrst]

/-- Settles O34: the word's meaning answers, and its answer is pending on the port. -/
theorem everyCommandIsAnswered : Obligations.EveryCommandIsAnswered := by
  intro s w rest
  obtain ⟨t, hexec, hrd, hstatus⟩ := execDecoded_answers (decode w) ({ s with inputs := rest } : State).takeRsp
  have hrsp : ∃ v, t.rsp = some v := by
    by_cases h : ∃ i, decode w = .instr (.rd i)
    · obtain ⟨i, hi⟩ := h
      exact ⟨_, hrd i hi⟩
    · exact ⟨_, hstatus (not_exists.mp h)⟩
  obtain ⟨v, hv⟩ := hrsp
  exact ⟨t, hexec, execDecoded_inputs hexec, hrd, hstatus, handshake_of_pending hv⟩

/-- Settles O35: the state after a taken response has none pending, and a next input `rst` is the port `rst`. -/
theorem handshakePorts : Obligations.HandshakePorts := by
  intro s rest
  refine ⟨⟨_, rfl, sameElements_takeRsp s rest, rfl, handshake_of_taken rfl⟩, handshake_of_rst ?_⟩
  simp [State.rstPort]

/-! ### Which command writes which element -/

/-- What becomes of ERR: it stays, INIT clears it, or the cause of a code is there and the code is recorded (rule R204). -/
theorem Effect.err_cases (h : Effect d s t) :
    t.err = s.err ∨ (d = .instr .init ∧ t.err = 0#4) ∨
      (s.err = 0#4 ∧ ∃ e : ErrCode, t.err = e.code ∧ RaiseCause d s e) := by
  cases h with
  | keeps ht =>
    obtain ⟨-, -, -, -, -, -, herr⟩ := ht
    exact .inl herr
  | clears hd ht => exact .inr (.inl ⟨hd, by simp [ht]⟩)
  | raises e _ h0 hcause ht => exact .inr (.inr ⟨h0, e, by simp [ht, State.recordErr_err_of_zero h0], hcause⟩)
  | loads _ _ _ _ ht => exact .inl (by simp [ht])
  | absorbs _ _ _ _ _ _ ht => exact .inl (by simp [ht])
  | captures _ _ _ ht => exact .inl (by simp [ht])
  | agrees _ _ _ _ ht => exact .inl (by simp [ht])
  | differs _ _ h0 hcause ht =>
    have h0' : (s.setMatch false).err = 0#4 := h0
    exact .inr (.inr ⟨h0, .checksum, by simp [ht, State.recordErr_err_of_zero h0'], hcause⟩)

/-- What becomes of PHASE (rule R25): it stays, or INIT, a type load or FINAL moves it. -/
theorem Effect.phase_cases (h : Effect d s t) :
    t.phase = s.phase ∨ (d = .instr .init ∧ t.phase = .type) ∨
    ((∃ ty, d = .instr (.ldtype ty) ∨ d = .instr (.ldtypet ty)) ∧ s.phase = .type ∧ t.phase = .data ∧ t.err = 0#4) ∨
    (d = .instr .final ∧ s.phase = .data ∧ t.phase = .done ∧ t.err = 0#4) := by
  cases h with
  | keeps ht =>
    obtain ⟨-, -, -, hphase, -⟩ := ht
    exact .inl hphase
  | clears hd ht => exact .inr (.inl ⟨hd, by simp [ht]⟩)
  | raises _ _ _ _ ht => exact .inl (by simp [ht])
  | loads ty hd h0 hp ht => exact .inr (.inr (.inl ⟨⟨ty, hd⟩, hp, by simp [ht], by simp [ht, h0]⟩))
  | absorbs _ _ _ _ _ _ ht => exact .inl (by simp [ht])
  | captures hd h0 hp ht => exact .inr (.inr (.inr ⟨hd, hp, by simp [ht], by simp [ht, h0]⟩))
  | agrees _ _ _ _ ht => exact .inl (by simp [ht])
  | differs _ _ _ _ ht => exact .inl (by simp [ht])

/-- Settles O39: the moves of PHASE are those of the command's effect. -/
theorem phaseMovesInOrder : Obligations.PhaseMovesInOrder := fun _ _ _ h => (execDecoded_effect h).phase_cases

/-- The columns CRC, RESULT, TYPE, LEN and MATCH of rule R38, INIT left out. -/
theorem Effect.writers (h : Effect d s t) (hinit : d ≠ .instr .init) :
    (t.crc ≠ s.crc → (∃ ty, d = .instr (.ldtype ty) ∨ d = .instr (.ldtypet ty)) ∧ s.phase = .type ∨
      ∃ i bs, d = .instr i ∧ payloadOf i = some bs ∧ s.phase = .data) ∧
    (t.result ≠ s.result → d = .instr .final) ∧
    (t.typeCode ≠ s.typeCode → d = .instr (.ldtype t.typeCode) ∨ d = .instr (.ldtypet t.typeCode)) ∧
    (t.len ≠ s.len → ∃ i bs, d = .instr i ∧ payloadOf i = some bs) ∧
    (t.matchFlag ≠ s.matchFlag → ∃ c, d = .instr (.check c)) := by
  cases h with
  | keeps ht =>
    obtain ⟨hcrc, hresult, htype, -, hlen, hmatch, -⟩ := ht
    exact ⟨absurd hcrc, absurd hresult, absurd htype, absurd hlen, absurd hmatch⟩
  | clears hd _ => exact absurd hd hinit
  | raises _ _ _ _ ht => simp [ht]
  | loads ty hd _ hp ht =>
    exact ⟨fun _ => .inl ⟨⟨ty, hd⟩, hp⟩, by simp [ht], fun _ => by simpa [ht] using hd, by simp [ht], by simp [ht]⟩
  | absorbs i bs hd hb _ hp ht =>
    exact ⟨fun _ => .inr ⟨i, bs, hd, hb, hp⟩, by simp [ht], by simp [ht], fun _ => ⟨i, bs, hd, hb⟩, by simp [ht]⟩
  | captures hd _ _ ht => exact ⟨by simp [ht], fun _ => hd, by simp [ht], by simp [ht], by simp [ht]⟩
  | agrees c hd _ _ ht => exact ⟨by simp [ht], by simp [ht], by simp [ht], by simp [ht], fun _ => ⟨c, hd⟩⟩
  | differs c hd _ _ ht => exact ⟨by simp [ht], by simp [ht], by simp [ht], by simp [ht], fun _ => ⟨c, hd⟩⟩

/-- The column PHASE of rule R38, INIT left out. -/
theorem Effect.phase_writers (h : Effect d s t) (hinit : d ≠ .instr .init) (hne : t.phase ≠ s.phase) :
    ((∃ ty, d = .instr (.ldtype ty) ∨ d = .instr (.ldtypet ty)) ∧ s.phase = .type ∧ t.phase = .data) ∨
      (d = .instr .final ∧ s.phase = .data ∧ t.phase = .done) := by
  rcases h.phase_cases with hkeep | ⟨hd, -⟩ | ⟨hd, hp, hp', -⟩ | ⟨hd, hp, hp', -⟩
  · exact absurd hkeep hne
  · exact absurd hd hinit
  · exact .inl ⟨hd, hp, hp'⟩
  · exact .inr ⟨hd, hp, hp'⟩

/-- The column ERR of rule R38, INIT left out: the code and its cause. -/
theorem Effect.err_writers (h : Effect d s t) (hinit : d ≠ .instr .init) (hne : t.err ≠ s.err) :
    s.err = 0#4 ∧
      ((t.err = 5#4 ∧ ∃ op, d = .illegal op) ∨
       (t.err = 3#4 ∧ ∃ i, d = .instr i ∧ s.phase.accepts i = false) ∨
       (t.err = 1#4 ∧ s.phase = .type ∧ ∃ ty, d = .instr (.ldtypet ty) ∧ allAlpha ty = false) ∨
       (t.err = 4#4 ∧ s.phase = .data ∧
         ∃ i bs, d = .instr i ∧ payloadOf i = some bs ∧ 0xFFFFFFFF < s.len.toNat + bs.length) ∨
       (t.err = 2#4 ∧ s.phase = .done ∧ ∃ c, d = .instr (.check c) ∧ s.result ≠ c)) := by
  rcases h.err_cases with hkeep | ⟨hd, -⟩ | ⟨h0, e, hcode, hcause⟩
  · exact absurd hkeep hne
  · exact absurd hd hinit
  refine ⟨h0, ?_⟩
  cases e with
  | none => exact hcause.elim
  | illegalOp => exact .inl ⟨hcode, hcause⟩
  | sequence => exact .inr (.inl ⟨hcode, hcause⟩)
  | invalidType => exact .inr (.inr (.inl ⟨hcode, hcause⟩))
  | lengthOvf =>
    obtain ⟨hp, i, bs, hd, hb, -, hl⟩ := hcause
    exact .inr (.inr (.inr (.inl ⟨hcode, hp, i, bs, hd, hb, hl⟩)))
  | checksum => exact .inr (.inr (.inr (.inr ⟨hcode, hcause⟩)))

/-- Settles O41: the columns of rule R38 put together. -/
theorem writersOfEachElement : Obligations.WritersOfEachElement := by
  intro d s t h hinit
  have heffect := execDecoded_effect h
  obtain ⟨hcrc, hresult, htype, hlen, hmatch⟩ := heffect.writers hinit
  exact ⟨hcrc, hresult, htype, heffect.phase_writers hinit, hlen, hmatch, heffect.err_writers hinit⟩

/-! ### The phase check -/

/-- A gated command outside its one phase. -/
theorem gated_inPhase_of_ne (h0 : s.err = 0#4) (hp : (s.phase == p) = false) :
    gated (inPhase p body) s = raiseErr .sequence s := by
  rw [gated_of_noErr h0, inPhase_of_ne (by simpa using hp)]

/-- A command the phase does not accept does nothing but raise E_SEQUENCE (rules R25, R206). -/
theorem exec_of_not_accepted {i : Instr} (h0 : s.err = 0#4) (hacc : s.phase.accepts i = false) :
    exec i s = raiseErr .sequence s := by
  cases i with
  | nop | init | rd => cases hacc
  | ldtype | ldtypet | data1 | data2 | data3 | data4 | final | check => exact gated_inPhase_of_ne h0 hacc

/-- E_SEQUENCE is raised only by a command the phase does not accept. -/
theorem Effect.err_ne_sequence {i : Instr} (h : Effect (.instr i) s t) (h0 : s.err = 0#4)
    (hacc : s.phase.accepts i = true) : t.err ≠ 3#4 := by
  intro ht
  rcases h.err_cases with hkeep | ⟨-, hzero⟩ | ⟨-, e, hcode, hcause⟩
  · simp [hkeep, h0] at ht
  · simp [hzero] at ht
  · cases e with
    | sequence =>
      obtain ⟨j, hj, hno⟩ := hcause
      cases hj
      simp [hacc] at hno
    | none | illegalOp | invalidType | lengthOvf | checksum => simp [hcode, ErrCode.code] at ht

/-- Settles O38: a refused command only raises E_SEQUENCE, and no effect of an accepted one records it. -/
theorem phaseDecidesSequenceError : Obligations.PhaseDecidesSequenceError := by
  intro i s h0
  refine ⟨fun hacc => ?_, fun hacc => ?_⟩
  · exact ⟨_, exec_of_not_accepted h0 hacc, recordErr_answer_frame h0 rfl⟩
  · obtain ⟨t, hexec, -⟩ := execDecoded_answers (.instr i) s
    exact ⟨t, hexec, (execDecoded_effect hexec).err_ne_sequence h0 hacc⟩

end Sys2Proof.Machine
end

-- ==== Proofs: 20_memory.md (rules R50 to R60) ====
section

namespace Sys2Proof.Machine

variable {s t u v : State} {d : Decoded} {i j : Instr} {is js : List Instr} {a b bs : List Byte} {ty c w : Word}
  {e : ErrCode} {p : Phase} {body : State → Result}

/-! ### Steps and runs -/

/-- A step on a command word is the word's meaning, after the pending response is taken (rules R52, R244). -/
theorem step_command (s : State) (w : CmdWord) (rest : List HostInput) :
    step { s with inputs := .command w :: rest } = execDecoded (decode w) { s with inputs := rest, rsp := none } := rfl

/-- Settles O33: the step on a command word, for the two kinds of what it decodes to. -/
theorem stepRunsTheDecodedCommand : Obligations.StepRunsTheDecodedCommand := by
  intro s w rest
  refine ⟨fun i hi => ?_, fun op hop => ?_, rfl⟩
  · rw [step_command, hi, execDecoded]
  · rw [step_command, hop, execDecoded]

/-- A meaning that does not read the host's later inputs and leaves them as they are (rule R60). -/
def InputBlind (body : State → Result) : Prop :=
  ∀ (s t : State) (xs : List HostInput), body s = .next t → body { s with inputs := xs } = .next { t with inputs := xs }

theorem inputBlind_finish (f : State → State) (hf : ∀ s xs, f { s with inputs := xs } = { f s with inputs := xs }) :
    InputBlind fun s => finish (f s) := by
  rintro s t xs h
  obtain rfl := finish_eq_next.mp h
  exact congrArg finish (hf s xs)

/-- Recording a code does not read the host's inputs. -/
theorem State.recordErr_withInputs (s : State) (xs : List HostInput) :
    ({ s with inputs := xs } : State).recordErr e = { s.recordErr e with inputs := xs } := by
  by_cases h0 : s.err = 0#4
  · simp [State.recordErr, h0]
  · simp [State.recordErr, h0]

theorem inputBlind_raiseErr (e : ErrCode) : InputBlind (raiseErr e) :=
  inputBlind_finish (·.recordErr e) fun s xs => s.recordErr_withInputs xs

/-- A command that does one of two things by a condition that is no host's input. -/
theorem InputBlind.ite {cond : State → Prop} [DecidablePred cond] {f g : State → Result}
    (hc : ∀ s xs, cond { s with inputs := xs } ↔ cond s) (hf : InputBlind f) (hg : InputBlind g) :
    InputBlind fun s => if cond s then f s else g s := by
  intro s t xs hs
  by_cases h : cond s
  · simp only [h, if_true] at hs
    simp only [hc, h, if_true]
    exact hf s t xs hs
  · simp only [h, if_false] at hs
    simp only [hc, h, if_false]
    exact hg s t xs hs

theorem InputBlind.gated (h : InputBlind body) : InputBlind (gated body) :=
  .ite (fun _ _ => Iff.rfl) h (inputBlind_finish id fun _ _ => rfl)

theorem InputBlind.inPhase (h : InputBlind body) : InputBlind (inPhase p body) :=
  .ite (fun _ _ => Iff.rfl) h (inputBlind_raiseErr .sequence)

theorem inputBlind_absorbPayload (n : Nat) (arg : Word) : InputBlind (absorbPayload n arg) :=
  .gated (.inPhase (.ite (fun _ _ => Iff.rfl) (inputBlind_raiseErr .lengthOvf) (inputBlind_finish _ fun _ _ => rfl)))

theorem inputBlind_execLdtype (ty : Word) : InputBlind (execLdtype ty) :=
  .gated (.inPhase (inputBlind_finish _ fun _ _ => rfl))

theorem inputBlind_execLdtypet (ty : Word) : InputBlind (execLdtypet ty) :=
  .gated (.inPhase (.ite (fun _ _ => Iff.rfl) (inputBlind_finish _ fun _ _ => rfl) (inputBlind_raiseErr .invalidType)))

theorem inputBlind_execCheck (c : Word) : InputBlind (execCheck c) :=
  .gated (.inPhase (.ite (fun _ _ => Iff.rfl) (inputBlind_finish _ fun _ _ => rfl)
    (inputBlind_finish _ fun s xs => (s.setMatch false).recordErr_withInputs xs)))

/-- No command word's meaning reads or writes what the host does next. -/
theorem inputBlind_execDecoded (d : Decoded) : InputBlind (execDecoded d) :=
  match d with
  | .illegal _ => .gated (inputBlind_raiseErr .illegalOp)
  | .instr .nop => inputBlind_finish id fun _ _ => rfl
  | .instr .init => inputBlind_finish _ fun _ _ => rfl
  | .instr (.ldtype ty) => inputBlind_execLdtype ty
  | .instr (.ldtypet ty) => inputBlind_execLdtypet ty
  | .instr (.data1 v) => inputBlind_absorbPayload 1 v
  | .instr (.data2 v) => inputBlind_absorbPayload 2 v
  | .instr (.data3 v) => inputBlind_absorbPayload 3 v
  | .instr (.data4 v) => inputBlind_absorbPayload 4 v
  | .instr .final => .gated (.inPhase (inputBlind_finish _ fun _ _ => rfl))
  | .instr (.check c) => inputBlind_execCheck c
  | .instr (.rd _) => fun _ _ _ h => Host.Outcome.next.inj h ▸ rfl

/-- What a step does to the block is decided by the first input alone, whatever inputs follow it (rule R60). -/
theorem step_followed_by {x : HostInput} {xs : List HostInput} (ys : List HostInput)
    (h : step { s with inputs := x :: xs } = .next t) :
    step { s with inputs := x :: ys } = .next { t with inputs := ys } := by
  cases x with
  | rst | takeResponse => exact Host.Outcome.next.inj h ▸ rfl
  | command w => exact inputBlind_execDecoded (decode w) _ t ys h

/-- A run over a first input and the rest is a step with no other input known, and a run. -/
theorem runs_cons_alone {x : HostInput} {xs : List HostInput} :
    runs (x :: xs) s t ↔ ∃ u, step { s with inputs := [x] } = .next u ∧ runs xs u t := by
  rw [runs_cons]
  constructor
  · rintro ⟨u, hstep, hrun⟩
    exact ⟨{ u with inputs := [] }, step_followed_by [] hstep, hrun⟩
  · rintro ⟨u, hstep, hrun⟩
    exact ⟨{ u with inputs := xs }, step_followed_by xs hstep, hrun⟩

/-- A run over two lists of inputs (rule R60). -/
theorem runs_append {xs ys : List HostInput} : runs (xs ++ ys) s u ↔ ∃ t, runs xs s t ∧ runs ys t u := by
  induction xs generalizing s with
  | nil =>
    have hstart : runs ys { s with inputs := [] } u ↔ runs ys s u := Iff.rfl
    simp [runs_nil, hstart]
  | cons x xs ih =>
    simp only [List.cons_append, runs_cons_alone, ih]
    constructor
    · rintro ⟨v, hstep, t, hxs, hys⟩
      exact ⟨t, ⟨v, hstep, hxs⟩, hys⟩
    · rintro ⟨t, ⟨v, hstep, hxs⟩, hys⟩
      exact ⟨v, hstep, t, hxs, hys⟩

/-- Settles O36, by induction on the first list of inputs. -/
theorem runsCompose : Obligations.RunsCompose := fun _ _ _ _ => runs_append

/-- A run over one input is a step (rule R52). -/
theorem runs_singleton {x : HostInput} : runs [x] s t ↔ step { s with inputs := [x] } = .next t := by
  simp only [runs_cons_alone, runs_nil]
  constructor
  · rintro ⟨u, hstep, rfl⟩
    exact step_followed_by [] hstep
  · intro hstep
    exact ⟨t, hstep, by rw [← step_inputs hstep]⟩

/-! ### Repeated commands -/

/-- A gated command is ignored while ERR is not 0 (rule R203). -/
theorem execDecoded_of_err (hg : isGated d = true) (he : s.err ≠ 0#4) : execDecoded d s = .next s.answer := by
  obtain ⟨t, h, -⟩ := execDecoded_answers d s
  rcases execDecoded_cases h with ⟨rfl, -⟩ | ⟨i, rfl, -⟩ | ⟨rfl, -⟩ | ⟨-, -, ht⟩ | ⟨-, h0, -⟩
  · cases hg
  · cases hg
  · cases hg
  · exact ht ▸ h
  · exact absurd h0 he

/-- Answering STATUS where it is the pending response already changes nothing. -/
theorem State.answer_eq_self_of_rsp (h : s.rsp = some s.status) : s.answer = s := by
  rw [State.answer, State.respond, ← h]

/-- A command whose response was STATUS leaves it pending, so that answering it once more changes nothing (rule R35). -/
theorem answer_eq_self_of_execDecoded (h : execDecoded d s = .next t) (hrd : ∀ i, d ≠ .instr (.rd i)) : t.answer = t := by
  obtain ⟨t', h', -, hstatus⟩ := execDecoded_answers d s
  obtain rfl : t' = t := Host.Outcome.next.inj (h'.symm.trans h)
  exact State.answer_eq_self_of_rsp (hstatus hrd)

/-- A gated command that leaves an error, its own or an earlier one, does the same again (rules R59, R203). -/
theorem gated_repeats_of_err (h : execDecoded d s = .next t) (hg : isGated d = true) (he : t.err ≠ 0#4) :
    execDecoded d t = .next t := by
  have hrd : ∀ i, d ≠ .instr (.rd i) := by
    rintro i rfl
    cases hg
  rw [execDecoded_of_err hg he, answer_eq_self_of_execDecoded h hrd]

/-- NOP, RD and INIT do the same again (rule R59). -/
theorem ungated_repeats (h : execDecoded d s = .next t) (hg : isGated d = false) : execDecoded d t = .next t := by
  rcases execDecoded_cases h with ⟨rfl, rfl⟩ | ⟨i, rfl, rfl⟩ | ⟨rfl, rfl⟩ | ⟨hg', -⟩ | ⟨hg', -⟩
  · rfl
  · rfl
  · rfl
  · simp [hg] at hg'
  · simp [hg] at hg'

/-- CHECK in DONE with no error standing (rule R145). -/
theorem exec_check_of_eq (h0 : s.err = 0#4) (hp : s.phase = .done) (hr : s.result = c) :
    exec (.check c) s = .next (s.setMatch true).answer := by
  rw [exec, execCheck, gated_of_noErr h0, inPhase_of_eq hp, if_pos hr, finish]

theorem exec_check_of_ne (h0 : s.err = 0#4) (hp : s.phase = .done) (hr : s.result ≠ c) :
    exec (.check c) s = .next ({ s with matchFlag := false, err := 2#4 } : State).answer := by
  have hrec : (s.setMatch false).recordErr .checksum = { s with matchFlag := false, err := 2#4 } := if_pos h0
  rw [exec, execCheck, gated_of_noErr h0, inPhase_of_eq hp, if_neg hr, raiseErr, hrec, finish]

/-- A raise from ERR = 0 leaves an error. -/
theorem recordErr_err_ne_zero (h0 : s.err = 0#4) (he : e ≠ .none) : (s.recordErr e).err ≠ 0#4 := by
  rw [State.recordErr_err_of_zero h0]
  cases e <;> simp [ErrCode.code] at he ⊢

/-- A CHECK that matched matches again (rules R59, R145). -/
theorem check_repeats_of_noErr (h : execDecoded (.instr (.check c)) s = .next t) (h0 : t.err = 0#4) :
    execDecoded (.instr (.check c)) t = .next t := by
  rcases execCheck_cases h with ⟨he, rfl⟩ | ⟨hs, c', hc, ⟨-, rfl⟩ | ⟨hp, hr, rfl⟩ | ⟨-, -, rfl⟩⟩
  · exact absurd h0 he
  · exact absurd h0 (recordErr_err_ne_zero hs (by decide))
  · cases hc
    exact exec_check_of_eq hs hp hr
  · exact absurd h0 (recordErr_err_ne_zero (s := s.setMatch false) hs (by decide))

/-- A type load that leaves no error leaves PHASE = DATA (rules R100, R102). -/
theorem LoadCase.phase_of_noErr (h : LoadCase d s t) (hs : s.err = 0#4) (h0 : t.err = 0#4) : t.phase = .data := by
  obtain ⟨ty, -, ⟨-, rfl⟩ | ⟨-, -, -, rfl⟩ | ⟨-, -, rfl⟩⟩ := h
  · exact absurd h0 (recordErr_err_ne_zero hs (by decide))
  · exact absurd h0 (recordErr_err_ne_zero hs (by decide))
  · rfl

/-- A FINAL that leaves no error leaves PHASE = DONE (rule R143). -/
theorem FinalCase.phase_of_noErr (h : FinalCase d s t) (hs : s.err = 0#4) (h0 : t.err = 0#4) : t.phase = .done := by
  obtain ⟨-, ⟨-, rfl⟩ | ⟨-, rfl⟩⟩ := h
  · exact absurd h0 (recordErr_err_ne_zero hs (by decide))
  · rfl

/-- A command the phase does not accept raises E_SEQUENCE and writes nothing else (rules R25, R204). -/
theorem exec_of_not_accepted_frame (h0 : s.err = 0#4) (hacc : s.phase.accepts i = false) :
    ∃ t, exec i s = .next t ∧ t = { s with err := 3#4, rsp := some t.status } :=
  ⟨_, exec_of_not_accepted h0 hacc, recordErr_answer_frame h0 rfl⟩

/-- A repeated type load is refused in DATA (rule R59). -/
theorem repeated_load_raises (hload : d = .instr (.ldtype ty) ∨ d = .instr (.ldtypet ty))
    (h : execDecoded d s = .next t) (h0 : t.err = 0#4) :
    ∃ u, execDecoded d t = .next u ∧ u = { t with err := 3#4, rsp := some u.status } := by
  rcases hload with rfl | rfl
  · rcases execLdtype_cases h with ⟨he, rfl⟩ | ⟨hs, hcase⟩
    · exact absurd h0 he
    · exact exec_of_not_accepted_frame (i := .ldtype ty) h0 (by rw [hcase.phase_of_noErr hs h0]; rfl)
  · rcases execLdtypet_cases h with ⟨he, rfl⟩ | ⟨hs, hcase⟩
    · exact absurd h0 he
    · exact exec_of_not_accepted_frame (i := .ldtypet ty) h0 (by rw [hcase.phase_of_noErr hs h0]; rfl)

/-- A repeated FINAL is refused in DONE (rule R59). -/
theorem repeated_final_raises (h : execDecoded (.instr .final) s = .next t) (h0 : t.err = 0#4) :
    ∃ u, execDecoded (.instr .final) t = .next u ∧ u = { t with err := 3#4, rsp := some u.status } := by
  rcases execFinal_cases h with ⟨he, rfl⟩ | ⟨hs, hcase⟩
  · exact absurd h0 he
  · exact exec_of_not_accepted_frame (i := .final) h0 (by rw [hcase.phase_of_noErr hs h0]; rfl)

/-- Settles O44: an ungated command does the same again, an error shuts the gate, a CHECK without error matched; and a load
or FINAL without error has left the phase that accepts it. -/
theorem repeatedCommands : Obligations.RepeatedCommands := by
  intro d s t h
  refine ⟨fun hd => ?_, ?_⟩
  · cases hg : isGated d with
    | false => exact ungated_repeats h hg
    | true =>
      by_cases h0 : t.err = 0#4
      · rcases hd with rfl | ⟨i, rfl⟩ | rfl | ⟨c, rfl⟩ | herr
        · cases hg
        · cases hg
        · cases hg
        · exact check_repeats_of_noErr h h0
        · exact absurd h0 herr
      · exact gated_repeats_of_err h hg h0
  · rintro (⟨ty, hload⟩ | rfl) h0
    · exact repeated_load_raises hload h h0
    · exact repeated_final_raises h h0

/-! ### Big-endian bytes and words -/

/-- The n low bytes of a word are decided by its 8n low bits. -/
theorem bytesBe_congr {v w : Word} {n : Nat} (h : ∀ k < 8 * n, v.getLsbD k = w.getLsbD k) : bytesBe v n = bytesBe w n := by
  induction n with
  | zero => rfl
  | succ n ih =>
    have hhead : v.extractLsb' (8 * n) 8 = w.extractLsb' (8 * n) 8 := by
      ext k hk
      simpa using h (8 * n + k) (by omega)
    rw [bytesBe, bytesBe, hhead, ih fun k hk => h k (by omega)]

/-- The last of the n + 1 low bytes is bits [7:0], and the others are the n low bytes above it (rule R9). -/
theorem bytesBe_succ_last (w : Word) (n : Nat) : bytesBe w (n + 1) = bytesBe (w >>> 8) n ++ [w.extractLsb' 0 8] := by
  induction n with
  | zero => rfl
  | succ n ih =>
    have hhead : w.extractLsb' (8 * (n + 1)) 8 = (w >>> 8).extractLsb' (8 * n) 8 := by
      ext k hk
      simp [show 8 * (n + 1) + k = 8 + (8 * n + k) by omega]
    rw [bytesBe, ih, hhead]
    rfl

/-- The decoder's cut of an argument to n bytes keeps those bytes (rules R74, R75). -/
theorem bytesBe_lowBytes (w : Word) (n : Nat) : bytesBe (lowBytes n w) n = bytesBe w n := by
  apply bytesBe_congr
  intro k hk
  have hw : 32 ≤ k → w.getLsbD k = false := BitVec.getLsbD_of_ge _ _
  simp only [lowBytes, BitVec.getLsbD_setWidth, hk, decide_true, Bool.true_and]
  grind

/-- Reading one more byte into a word (rule R53). -/
theorem wordOfList_append_singleton (bs : List Byte) (b : Byte) :
    wordOfList (bs ++ [b]) = wordOfList bs <<< 8 ||| b.setWidth 32 := by
  simp [wordOfList]

/-- Up to 4 bytes are the big-endian bytes of the word read from them (rules R9, R53). -/
theorem bytesBe_wordOfList (h : bs.length ≤ 4) : bytesBe (wordOfList bs) bs.length = bs := by
  induction bs using List.reverseRecOn with
  | nil => rfl
  | append_singleton bs b ih =>
    rw [List.length_append, List.length_singleton] at h ⊢
    have hlast : (wordOfList bs <<< 8 ||| b.setWidth 32).extractLsb' 0 8 = b := by
      ext k hk
      have hk32 : k < 32 := by omega
      simp [hk, hk32]
    have hbefore :
        bytesBe ((wordOfList bs <<< 8 ||| b.setWidth 32) >>> 8) bs.length = bytesBe (wordOfList bs) bs.length := by
      apply bytesBe_congr
      intro k hk
      have hk32 : 8 + k < 32 := by omega
      simp [-BitVec.getLsbD_eq_getElem, hk32]
    rw [bytesBe_succ_last, wordOfList_append_singleton, hlast, hbefore, ih (by omega)]

/-- The word read from the n low bytes of a word has the same 8n low bits (rule R53). -/
theorem wordOfList_bytesBe_getLsbD (w : Word) {n k : Nat} (hn : n ≤ 4) (hk : k < 8 * n) :
    (wordOfList (bytesBe w n)).getLsbD k = w.getLsbD k := by
  induction n generalizing w k with
  | zero => omega
  | succ n ih =>
    have hk32 : k < 32 := by omega
    rw [bytesBe_succ_last, wordOfList_append_singleton, BitVec.getLsbD_or, BitVec.getLsbD_shiftLeft]
    by_cases hlow : k < 8
    · simp [hlow, hk32]
    · rw [ih (w >>> 8) (by omega) (by omega)]
      simp [hlow, hk32, Nat.add_sub_cancel' (Nat.not_lt.mp hlow)]

/-- Reading back the 4 bytes of a word gives the word (rules R53, R56). -/
theorem wordOfList_bytesBe (w : Word) : wordOfList (bytesBe w 4) = w :=
  BitVec.eq_of_getLsbD_eq fun _ hk => wordOfList_bytesBe_getLsbD w (by omega) hk

/-! ### The bytes of commands -/

/-- DATA carries exactly the bytes it is given (rule R79). -/
theorem payloadBytes_pseudoData (bs : List Byte) : payloadBytes (pseudoData bs) = some bs := by
  induction bs using pseudoData.induct with
  | case1 a b c d rest ih =>
    have h : bytesBe (wordOfList [a, b, c, d]) 4 = [a, b, c, d] := bytesBe_wordOfList (bs := [a, b, c, d]) (by simp)
    simp [pseudoData, payloadBytes, payloadOf, h, ih]
  | case2 a b c =>
    have h : bytesBe (wordOfList [a, b, c]) 3 = [a, b, c] := bytesBe_wordOfList (bs := [a, b, c]) (by simp)
    simp [pseudoData, payloadBytes, payloadOf, h]
  | case3 a b =>
    have h : bytesBe (wordOfList [a, b]) 2 = [a, b] := bytesBe_wordOfList (bs := [a, b]) (by simp)
    simp [pseudoData, payloadBytes, payloadOf, h]
  | case4 a =>
    have h : bytesBe (wordOfList [a]) 1 = [a] := bytesBe_wordOfList (bs := [a]) (by simp)
    simp [pseudoData, payloadBytes, payloadOf, h]
  | case5 => rfl

/-- A command that carries payload, and the rest of a list. -/
theorem payloadBytes_cons (h : payloadBytes (i :: is) = some bs) :
    ∃ a b, payloadOf i = some a ∧ payloadBytes is = some b ∧ bs = a ++ b := by
  cases hi : payloadOf i with
  | none => simp [payloadBytes, hi] at h
  | some a =>
    cases his : payloadBytes is with
    | none => simp [payloadBytes, hi, his] at h
    | some b => exact ⟨a, b, rfl, rfl, by simpa [payloadBytes, hi, his] using h.symm⟩

/-- The word of a command without payload decodes to the command (rule R80). -/
theorem decode_encode_of_noPayload (h : payloadOf i = none) : decode (encode i) = .instr i := by
  cases i with
  | nop | init | ldtype | ldtypet | final | check => exact decode_cmdWord _ _
  | rd r =>
    have hr : (r.setWidth 32).extractLsb' 0 3 = r := by
      rw [BitVec.extractLsb'_setWidth_of_le (by omega), BitVec.extractLsb'_eq_self]
    exact (decode_cmdWord _ _).trans (congrArg (Decoded.instr ∘ Instr.rd) hr)
  | data1 | data2 | data3 | data4 => cases h

/-- The word of a DATAn decodes to a command with the same payload: only ignored bits of its operand are dropped
(rules R75, R80). -/
theorem decode_encode_of_payloadOf (h : payloadOf i = some bs) :
    ∃ j, decode (encode i) = .instr j ∧ payloadOf j = some bs := by
  cases i with
  | data1 v => exact ⟨_, decode_cmdWord _ _, h ▸ congrArg some (bytesBe_lowBytes v 1)⟩
  | data2 v => exact ⟨_, decode_cmdWord _ _, h ▸ congrArg some (bytesBe_lowBytes v 2)⟩
  | data3 v => exact ⟨_, decode_cmdWord _ _, h ▸ congrArg some (bytesBe_lowBytes v 3)⟩
  | data4 v => exact ⟨_, decode_cmdWord _ _, h⟩
  | nop | init | ldtype | ldtypet | final | check | rd => cases h

/-! ### Completing commands -/

/-- A type load in TYPE that takes its operand (rules R100, R102). -/
theorem exec_load (hi : i = .ldtype ty ∨ (i = .ldtypet ty ∧ allAlpha ty = true)) (h0 : s.err = 0#4)
    (hp : s.phase = .type) : exec i s = .next (s.loadType ty).answer := by
  rcases hi with rfl | ⟨rfl, hA⟩
  · rw [exec, execLdtype, gated_of_noErr h0, inPhase_of_eq hp, finish]
  · rw [exec, execLdtypet, gated_of_noErr h0, inPhase_of_eq hp, if_pos hA, finish]

theorem absorbPayload_of_fits {n : Nat} (h0 : s.err = 0#4) (hp : s.phase = .data) (hl : s.len.toNat + n ≤ 0xFFFFFFFF) :
    absorbPayload n w s = .next (s.absorb (bytesBe w n)).answer := by
  have hfits : ¬ Config.lenMax < s.len.toNat + n := Nat.not_lt.mpr hl
  rw [absorbPayload, gated_of_noErr h0, inPhase_of_eq hp, if_neg hfits, finish]

/-- A DATAn in DATA whose bytes fit (rule R140). -/
theorem exec_data (hi : payloadOf i = some bs) (h0 : s.err = 0#4) (hp : s.phase = .data)
    (hl : s.len.toNat + bs.length ≤ 0xFFFFFFFF) : exec i s = .next (s.absorb bs).answer := by
  cases i with
  | data1 | data2 | data3 | data4 =>
    obtain rfl := Option.some.inj hi
    rw [bytesBe_length] at hl
    exact absorbPayload_of_fits h0 hp hl
  | nop | init | ldtype | ldtypet | final | check | rd => cases hi

/-- FINAL in DATA (rule R143). -/
theorem exec_final (h0 : s.err = 0#4) (hp : s.phase = .data) : exec .final s = .next s.capture.answer := by
  rw [exec, execFinal, gated_of_noErr h0, inPhase_of_eq hp, finish]

/-! ### Lists of commands -/

theorem sameElements.symm (h : sameElements s t) : sameElements t s := by
  obtain ⟨hcrc, hresult, htype, hphase, hlen, hmatch, herr⟩ := h
  exact ⟨hcrc.symm, hresult.symm, htype.symm, hphase.symm, hlen.symm, hmatch.symm, herr.symm⟩

theorem sameElements.trans (h : sameElements s t) (h' : sameElements t u) : sameElements s u := by
  obtain ⟨hcrc, hresult, htype, hphase, hlen, hmatch, herr⟩ := h
  obtain ⟨hcrc', hresult', htype', hphase', hlen', hmatch', herr'⟩ := h'
  exact ⟨hcrc.trans hcrc', hresult.trans hresult', htype.trans htype', hphase.trans hphase', hlen.trans hlen',
    hmatch.trans hmatch', herr.trans herr'⟩

/-- States with the same elements differ in the response and the host's inputs only (rule R36). -/
theorem sameElements.ports_eq (h : sameElements s t) :
    { s with rsp := none, inputs := [] } = { t with rsp := none, inputs := [] } := by
  obtain ⟨hcrc, hresult, htype, hphase, hlen, hmatch, herr⟩ := h
  rw [hcrc, hresult, htype, hphase, hlen, hmatch, herr]

/-- A list of commands, issued in s, leaves the elements of u. The response port is left out, so that s and u may be named by
the operations of the commands. -/
def Reaches (is : List Instr) (s u : State) : Prop := ∃ t, runs (commands is) s t ∧ sameElements t u

/-- A command starts from the elements alone: the pending response is taken first (rules R36, R244). -/
theorem Reaches.congr_start (h : Reaches is s u) (hs : sameElements s v) : Reaches is v u := by
  obtain ⟨t, hrun, ht⟩ := h
  cases is with
  | nil =>
    obtain rfl := runs_nil.mp hrun
    exact ⟨{ v with inputs := [] }, runs_nil.mpr rfl, hs.symm.trans ht⟩
  | cons i is =>
    obtain ⟨w, hstep, hrest⟩ := runs_cons_alone.mp hrun
    have hstep' : step { v with inputs := [.command (encode i)] } = .next w := by
      rw [step_command] at hstep ⊢
      rw [← hs.ports_eq]
      exact hstep
    exact ⟨t, runs_cons_alone.mpr ⟨w, hstep', hrest⟩, ht⟩

/-- Commands take effect in the order they are issued (rule R60). -/
theorem Reaches.append (h : Reaches is s u) (h' : Reaches js u v) : Reaches (is ++ js) s v := by
  obtain ⟨t, hrun, ht⟩ := h
  obtain ⟨t', hrun', ht'⟩ := h'.congr_start ht.symm
  refine ⟨t', ?_, ht'⟩
  rw [commands, List.map_append]
  exact runs_append.mpr ⟨t, hrun, hrun'⟩

/-- One command, by what its word decodes to. -/
theorem Reaches.single (hd : decode (encode i) = .instr j)
    (h : exec j { s with rsp := none, inputs := [] } = .next t) (ht : sameElements t u) : Reaches [i] s u :=
  ⟨t, runs_singleton.mpr (by rw [step_command, hd]; exact h), ht⟩

/-- INIT (rule R135). -/
theorem reaches_init (s : State) : Reaches [.init] s (s.clear .type) :=
  .single (decode_encode_of_noPayload rfl) (finish_eq_next.mpr rfl) ⟨rfl, rfl, rfl, rfl, rfl, rfl, rfl⟩

/-- A type load that takes its operand (rules R100, R102). -/
theorem reaches_load (hi : i = .ldtype ty ∨ (i = .ldtypet ty ∧ allAlpha ty = true)) (h0 : s.err = 0#4)
    (hp : s.phase = .type) : Reaches [i] s (s.loadType ty) := by
  have hno : payloadOf i = none := by rcases hi with rfl | ⟨rfl, -⟩ <;> rfl
  exact .single (decode_encode_of_noPayload hno) (exec_load hi h0 hp) ⟨rfl, rfl, rfl, rfl, rfl, rfl, rfl⟩

/-- A DATAn whose bytes fit (rule R140). -/
theorem reaches_data (hi : payloadOf i = some bs) (h0 : s.err = 0#4) (hp : s.phase = .data)
    (hl : s.len.toNat + bs.length ≤ 0xFFFFFFFF) : Reaches [i] s (s.absorb bs) := by
  obtain ⟨j, hd, hj⟩ := decode_encode_of_payloadOf hi
  exact .single hd (exec_data hj h0 hp hl) ⟨rfl, rfl, rfl, rfl, rfl, rfl, rfl⟩

/-- FINAL (rule R143). -/
theorem reaches_final (h0 : s.err = 0#4) (hp : s.phase = .data) : Reaches [.final] s s.capture :=
  .single (decode_encode_of_noPayload rfl) (exec_final h0 hp) ⟨rfl, rfl, rfl, rfl, rfl, rfl, rfl⟩

/-- A CHECK that matches (rule R145). -/
theorem reaches_check_of_eq (h0 : s.err = 0#4) (hp : s.phase = .done) (hr : s.result = c) :
    Reaches [.check c] s (s.setMatch true) :=
  .single (decode_encode_of_noPayload rfl) (exec_check_of_eq h0 hp hr) ⟨rfl, rfl, rfl, rfl, rfl, rfl, rfl⟩

/-- A CHECK that does not match (rule R145). -/
theorem reaches_check_of_ne (h0 : s.err = 0#4) (hp : s.phase = .done) (hr : s.result ≠ c) :
    Reaches [.check c] s { s with matchFlag := false, err := 2#4 } :=
  .single (decode_encode_of_noPayload rfl) (exec_check_of_ne h0 hp hr) ⟨rfl, rfl, rfl, rfl, rfl, rfl, rfl⟩

/-! ### Payloads -/

@[simp] theorem State.absorb_nil (s : State) : s.absorb [] = s := by
  simp [State.absorb]

/-- Absorbing two parts of a payload is absorbing the whole (rules R57, R131). -/
theorem State.absorb_append (s : State) (a b : List Byte) : s.absorb (a ++ b) = (s.absorb a).absorb b := by
  simp [State.absorb, crcBytes_append, BitVec.ofNat_add, BitVec.add_assoc]

/-- A payload that fits is counted without wrap (rule R142). -/
theorem State.absorb_len_toNat (hl : s.len.toNat + bs.length ≤ 0xFFFFFFFF) :
    (s.absorb bs).len.toNat = s.len.toNat + bs.length := by
  rw [State.absorb_len, BitVec.toNat_add, BitVec.toNat_ofNat]
  omega

/-- DATA commands absorb the bytes they carry, however these are split (rule R57). -/
theorem reaches_payload (hb : payloadBytes is = some bs) (h0 : s.err = 0#4) (hp : s.phase = .data)
    (hl : s.len.toNat + bs.length ≤ 0xFFFFFFFF) : Reaches is s (s.absorb bs) := by
  induction is generalizing s bs with
  | nil =>
    obtain rfl := Option.some.inj hb
    rw [State.absorb_nil]
    exact ⟨_, runs_nil.mpr rfl, rfl, rfl, rfl, rfl, rfl, rfl, rfl⟩
  | cons i is ih =>
    obtain ⟨a, b, hi, his, rfl⟩ := payloadBytes_cons hb
    rw [List.length_append] at hl
    have ha : (s.absorb a).len.toNat = s.len.toNat + a.length := State.absorb_len_toNat (by omega)
    rw [State.absorb_append]
    exact (reaches_data hi h0 hp (by omega)).append (ih his h0 hp (by omega))

/-- Settles O47: both lists of commands leave the elements of the same absorbed state. -/
theorem payloadSplitDoesNotMatter : Obligations.PayloadSplitDoesNotMatter := by
  intro is js bs s his hjs h0 hp hl
  obtain ⟨t, hrun, ht⟩ := reaches_payload his h0 hp hl
  obtain ⟨u, hrun', hu⟩ := reaches_payload hjs h0 hp hl
  refine ⟨t, u, hrun, hrun', ht.trans hu.symm, ?_⟩
  obtain ⟨hcrc, -, -, hphase, hlen, -, herr⟩ := ht
  exact ⟨hcrc, hlen ▸ State.absorb_len_toNat hl, herr.trans h0, hphase.trans hp⟩

/-! ### Whole chunks -/

/-- What a chunk computation leaves, whatever state it starts from: INIT, a type load, the payload, FINAL (rule R134). -/
def chunkState (s : State) (ty : Word) (d : List Byte) : State := (((s.clear .type).loadType ty).absorb d).capture

@[simp] theorem chunkState_err : (chunkState s ty bs).err = 0#4 := rfl
@[simp] theorem chunkState_phase : (chunkState s ty bs).phase = .done := rfl

/-- RESULT is the checksum of the type bytes and the payload (rules R132, R134). -/
@[simp] theorem chunkState_result : (chunkState s ty bs).result = crc32 (bytesBe ty 4 ++ bs) := by
  rw [crc32, crcBytes_append, ← typeBytes_eq_bytesBe]
  rfl

theorem chunkState_len_toNat (hl : bs.length ≤ 0xFFFFFFFF) : (chunkState s ty bs).len.toNat = bs.length := by
  have habsorb := State.absorb_len_toNat (s := (s.clear .type).loadType ty) (bs := bs) (by simpa using hl)
  simpa [chunkState] using habsorb

/-- INIT, a type load, DATA commands and FINAL compute a chunk (rule R134). -/
theorem reaches_chunk (hload : i = .ldtype ty ∨ (i = .ldtypet ty ∧ allAlpha ty = true)) (hb : payloadBytes is = some bs)
    (hl : bs.length ≤ 0xFFFFFFFF) : Reaches ([.init, i] ++ is ++ [.final]) s (chunkState s ty bs) := by
  have hinit : Reaches [.init] s (s.clear .type) := reaches_init s
  have htype : Reaches [i] (s.clear .type) ((s.clear .type).loadType ty) := reaches_load hload rfl rfl
  have hdata := reaches_payload (s := (s.clear .type).loadType ty) hb rfl rfl (by simpa using hl)
  exact ((hinit.append htype).append hdata).append (reaches_final rfl rfl)

/-- The pseudo-instruction CHUNKCRC (rule R79). -/
theorem reaches_pseudoChunkCrc (hl : bs.length ≤ 0xFFFFFFFF) : Reaches (pseudoChunkCrc ty bs) s (chunkState s ty bs) :=
  reaches_chunk (.inl rfl) (payloadBytes_pseudoData bs) hl

/-- After a list of commands that ends in no RD, the port shows STATUS (rules R33, R35). -/
theorem rspData_of_runs_commands (h : runs (commands (is ++ [i])) s t) (hi : decode (encode i) = .instr i)
    (hrd : ∀ r, i ≠ .rd r) : t.rspData = some t.status := by
  rw [commands, List.map_append] at h
  obtain ⟨v, -, hlast⟩ := runs_append.mp h
  obtain ⟨u, hstep, hinputs, -, hstatus, hport⟩ := everyCommandIsAnswered v (encode i) []
  obtain rfl : u = t := Host.Outcome.next.inj (hstep.symm.trans (runs_singleton.mp hlast))
  have hrst : u.rstPort = false := by simp [State.rstPort, hinputs]
  obtain ⟨-, hdata, -⟩ := hport hrst
  rw [hdata, hstatus fun r hr => hrd r (by simpa [hi] using hr)]

/-- STATUS of a matching CHECK (rules R30, R146). -/
theorem State.status_of_match (h0 : s.err = 0#4) (hm : s.matchFlag = true) (hp : s.phase = .done) :
    s.status = 0x00000007#32 := by
  rw [State.status, State.statusByte, h0, hm, hp]
  rfl

/-- STATUS of a failing CHECK (rules R30, R146). -/
theorem State.status_of_mismatch (he : s.err = 2#4) (hm : s.matchFlag = false) (hp : s.phase = .done) :
    s.status = 0x00000023#32 := by
  rw [State.status, State.statusByte, he, hm, hp]
  rfl

/-- A VERIFY sequence, by what its CHECK does after the chunk, answers STATUS. -/
theorem runs_pseudoVerify (hl : bs.length ≤ 0xFFFFFFFF) (h : Reaches [.check c] (chunkState s ty bs) u) :
    ∃ t, runs (commands (pseudoVerify ty bs c)) s t ∧ sameElements t u ∧ t.rspData = some t.status := by
  obtain ⟨t, hrun, ht⟩ := (reaches_pseudoChunkCrc hl).append h
  exact ⟨t, hrun, ht, rspData_of_runs_commands hrun (decode_encode_of_noPayload rfl) (by simp)⟩

/-- A VERIFY sequence against the checksum of its bytes (rules R145, R146). -/
theorem runs_pseudoVerify_match (s : State) (hl : bs.length ≤ 0xFFFFFFFF) (hc : c = crc32 (bytesBe ty 4 ++ bs)) :
    ∃ t, runs (commands (pseudoVerify ty bs c)) s t ∧ t.rspData = some 0x00000007#32 ∧ t.err = 0#4 ∧
      t.matchFlag = true := by
  have hcheck : Reaches [.check c] (chunkState s ty bs) ((chunkState s ty bs).setMatch true) :=
    reaches_check_of_eq chunkState_err chunkState_phase (chunkState_result.trans hc.symm)
  obtain ⟨t, hrun, ⟨-, -, -, hphase, -, hmatch, herr⟩, hrsp⟩ := runs_pseudoVerify hl hcheck
  exact ⟨t, hrun, hrsp.trans (congrArg some (State.status_of_match herr hmatch hphase)), herr, hmatch⟩

/-- A VERIFY sequence against any other word (rules R145, R146). -/
theorem runs_pseudoVerify_mismatch (s : State) (hl : bs.length ≤ 0xFFFFFFFF) (hc : c ≠ crc32 (bytesBe ty 4 ++ bs)) :
    ∃ t, runs (commands (pseudoVerify ty bs c)) s t ∧ t.rspData = some 0x00000023#32 ∧ t.err = 2#4 ∧
      t.matchFlag = false := by
  have hne : (chunkState s ty bs).result ≠ c := by
    rw [chunkState_result]
    exact hc.symm
  obtain ⟨t, hrun, ⟨-, -, -, hphase, -, hmatch, herr⟩, hrsp⟩ :=
    runs_pseudoVerify hl (reaches_check_of_ne chunkState_err chunkState_phase hne)
  exact ⟨t, hrun, hrsp.trans (congrArg some (State.status_of_mismatch herr hmatch hphase)), herr, hmatch⟩

/-- Settles O52: the computed RESULT is the checksum, and CHECK tells whether it is c. -/
theorem verifyAcceptsExactlyTheChecksum : Obligations.VerifyAcceptsExactlyTheChecksum := by
  intro s ty c d hl
  by_cases hc : c = crc32 (bytesBe ty 4 ++ d)
  · obtain ⟨t, hrun, hends⟩ := runs_pseudoVerify_match s hl hc
    exact ⟨t, hrun, fun _ => hends, absurd hc⟩
  · obtain ⟨t, hrun, hends⟩ := runs_pseudoVerify_mismatch s hl hc
    exact ⟨t, hrun, fun h => absurd h hc, fun _ => hends⟩

/-- The check program of the wire bytes of a chunk is a VERIFY sequence over its fields: it finds each field where
`serialise` put it (rules R53, R56). -/
theorem checkProgram_serialise {len r : Word} (hlen : len.toNat = bs.length) :
    checkProgram (serialise len ty r bs) = some (pseudoVerify ty bs r) := by
  have hsize : (serialise len ty r bs).length = 8 + bs.length + 4 := by
    simp only [serialise, List.length_append, bytesBe_length, typeBytes_length]
  have hlenField : (serialise len ty r bs).take 4 = bytesBe len 4 := rfl
  have htypeField : ((serialise len ty r bs).drop 4).take 4 = bytesBe ty 4 := rfl
  have hafter : (serialise len ty r bs).drop 8 = bs ++ bytesBe r 4 := rfl
  have hcrcField : (serialise len ty r bs).drop (8 + bs.length) = bytesBe r 4 := by
    rw [← List.drop_drop, hafter, List.drop_left]
  rw [checkProgram, hlenField, wordOfList_bytesBe, hlen, if_neg (by omega), if_neg (by omega), htypeField, hafter,
    hcrcField, wordOfList_bytesBe, List.take_left, List.take_of_length_le (bytesBe_length r 4).le, wordOfList_bytesBe]

/-- Settles O53: the built RESULT is the checksum, the check program reads it back, and VERIFY matches. -/
theorem builtChunkPassesItsCheck : Obligations.BuiltChunkPassesItsCheck := by
  intro s u ty d hl
  obtain ⟨t, hbuild, ht⟩ := reaches_pseudoChunkCrc (s := s) (ty := ty) hl
  obtain ⟨-, hresult, -, -, hlen, -, -⟩ := ht
  obtain ⟨v, hcheck, hrsp, -⟩ := runs_pseudoVerify_match u hl (hresult.trans chunkState_result)
  exact ⟨t, _, v, hbuild, checkProgram_serialise (hlen ▸ chunkState_len_toNat hl), hcheck, hrsp⟩

end Sys2Proof.Machine
end

-- ==== Proofs: 30_encoding.md (rules R70 to R80) ====
section

namespace Sys2Proof.Machine

variable {s : State} {i : Instr} {op : BitVec 8} {arg : Word} {bs : List Byte} {m cs : List Char} {n k v : Nat}
  {mk : Word → Instr} {o : AsmOperand}

/-! ### The argument bits a command uses -/

/-- Cutting a word to its low bits is masking it. -/
theorem setWidth_setWidth_eq_and (n : Nat) (x : Word) :
    (x.setWidth n).setWidth 32 = x &&& BitVec.ofNat 32 (2 ^ n - 1) := by
  ext k hk
  simp [← BitVec.getLsbD_eq_getElem, BitVec.getLsbD_ofNat, hk, Bool.and_comm]

/-- What the decoder keeps of a DATAn argument, as a mask (rule R75). -/
theorem lowBytes_eq_and (n : Nat) (x : Word) : lowBytes n x = x &&& BitVec.ofNat 32 (2 ^ (8 * n) - 1) :=
  setWidth_setWidth_eq_and (8 * n) x

/-- What the decoder keeps of an RD argument, as a mask (rule R75). -/
theorem setWidth_lowThreeBits (x : Word) : (x.extractLsb' 0 3).setWidth 32 = x &&& 0x00000007#32 := by
  rw [← BitVec.setWidth_eq_extractLsb' (by omega)]
  exact setWidth_setWidth_eq_and 3 x

theorem lowBytes_toNat (n : Nat) (x : Word) : (lowBytes n x).toNat = x.toNat % 2 ^ (8 * n) := by
  rw [lowBytes, BitVec.toNat_setWidth, BitVec.toNat_setWidth]
  exact Nat.mod_eq_of_lt ((Nat.mod_le _ _).trans_lt x.isLt)

theorem fitsBytes_lowBytes (n : Nat) (x : Word) : fitsBytes n (lowBytes n x) = true := by
  rw [fitsBytes, lowBytes_toNat, decide_eq_true_eq]
  exact Nat.mod_lt _ (Nat.two_pow_pos _)

theorem lowBytes_of_fits (h : fitsBytes n arg = true) : lowBytes n arg = arg := by
  apply BitVec.eq_of_toNat_eq
  rw [lowBytes_toNat]
  exact Nat.mod_eq_of_lt (of_decide_eq_true h)

/-- Every word fits in 4 bytes. -/
theorem fitsBytes_four (x : Word) : fitsBytes 4 x = true := decide_eq_true x.isLt

/-! ### Decoder and encoder -/

/-- Settles O28: only the operand of DATA1 to DATA3 can lose bits in the decoder, and a well-formed one has none to lose. -/
theorem decodeOfEncode : Obligations.DecodeOfEncode := by
  intro i hwf
  cases i with
  | data1 | data2 | data3 =>
    exact (decode_cmdWord _ _).trans (congrArg (Decoded.instr ∘ _) (lowBytes_of_fits hwf))
  | data4 => exact decode_cmdWord _ _
  | nop | init | ldtype | ldtypet | final | check | rd => exact decode_encode_of_noPayload rfl

/-- A command comes from its own opcode, with the used bits of the argument, and it is well-formed (rules R72, R75). -/
theorem decodeFields_eq_instr (h : decodeFields op arg = .instr i) :
    op = i.opcode ∧ i.argument = arg &&& i.usedArg ∧ i.wellFormed = true := by
  have hnone : 0#32 = arg &&& 0#32 := BitVec.and_zero.symm
  have hall : arg = arg &&& 0xFFFFFFFF#32 := BitVec.and_allOnes.symm
  rcases decodeFields_cases op arg with ⟨rfl, hd⟩ | ⟨rfl, hd⟩ | ⟨rfl, hd⟩ | ⟨rfl, hd⟩ | ⟨rfl, hd⟩ | ⟨rfl, hd⟩ |
    ⟨rfl, hd⟩ | ⟨rfl, hd⟩ | ⟨rfl, hd⟩ | ⟨rfl, hd⟩ | ⟨rfl, hd⟩ | ⟨-, -, -, -, -, -, -, -, -, -, -, hd⟩
  all_goals cases h.symm.trans hd
  · exact ⟨rfl, hnone, rfl⟩
  · exact ⟨rfl, hnone, rfl⟩
  · exact ⟨rfl, hall, rfl⟩
  · exact ⟨rfl, hall, rfl⟩
  · exact ⟨rfl, lowBytes_eq_and 1 arg, fitsBytes_lowBytes 1 arg⟩
  · exact ⟨rfl, lowBytes_eq_and 2 arg, fitsBytes_lowBytes 2 arg⟩
  · exact ⟨rfl, lowBytes_eq_and 3 arg, fitsBytes_lowBytes 3 arg⟩
  · exact ⟨rfl, hall, rfl⟩
  · exact ⟨rfl, hnone, rfl⟩
  · exact ⟨rfl, hall, rfl⟩
  · exact ⟨rfl, setWidth_lowThreeBits arg, rfl⟩

/-- Settles O29: the inversion of the decoder, put together by the encoder. -/
theorem encodeOfDecode : Obligations.EncodeOfDecode := by
  intro w i h
  obtain ⟨hop, harg, hwf⟩ := decodeFields_eq_instr h
  exact ⟨hwf, by rw [encode, harg, hop]⟩

/-- The decoder reads no bit of the argument that its command ignores (rule R75). -/
theorem decodeFields_and_usedArg (i : Instr) (x : Word) :
    decodeFields i.opcode (x &&& i.usedArg) = decodeFields i.opcode x := by
  have hlow (n : Nat) : lowBytes n (x &&& BitVec.ofNat 32 (2 ^ (8 * n) - 1)) = lowBytes n x := by
    simp only [lowBytes_eq_and, BitVec.and_assoc, BitVec.and_self]
  cases i with
  | nop | init | final => rfl
  | ldtype | ldtypet | data4 | check => exact congrArg _ BitVec.and_allOnes
  | data1 => exact congrArg (Decoded.instr ∘ Instr.data1) (hlow 1)
  | data2 => exact congrArg (Decoded.instr ∘ Instr.data2) (hlow 2)
  | data3 => exact congrArg (Decoded.instr ∘ Instr.data3) (hlow 3)
  | rd =>
    have hindex : (x &&& 0x00000007#32).extractLsb' 0 3 = x.extractLsb' 0 3 := by
      rw [← BitVec.setWidth_eq_extractLsb' (by omega), ← BitVec.setWidth_eq_extractLsb' (by omega), BitVec.setWidth_and]
      exact BitVec.and_allOnes
    exact congrArg (Decoded.instr ∘ Instr.rd) hindex

/-- Settles O31: both words decode to what their common used bits decode to. -/
theorem ignoredArgumentBitsHaveNoEffect : Obligations.IgnoredArgumentBitsHaveNoEffect := by
  intro w v i s rest hw hop harg
  obtain ⟨hi, -, -⟩ := decodeFields_eq_instr hw
  have hdecode : decode v = decode w := by
    rw [decode, decode, hop, hi, ← decodeFields_and_usedArg i (cmdArg v), harg, decodeFields_and_usedArg]
  rw [step_command, step_command, hdecode]

/-- The illegal opcodes are those outside the opcode map (rules R72, R76). -/
theorem decodeFields_eq_illegal_iff (op : BitVec 8) (arg : Word) : decodeFields op arg = .illegal op ↔
    op ∉ [0x00#8, 0x01#8, 0x02#8, 0x03#8, 0x08#8, 0x09#8, 0x0A#8, 0x0B#8, 0x10#8, 0x11#8, 0x20#8] := by
  rcases decodeFields_cases op arg with ⟨rfl, hd⟩ | ⟨rfl, hd⟩ | ⟨rfl, hd⟩ | ⟨rfl, hd⟩ | ⟨rfl, hd⟩ | ⟨rfl, hd⟩ |
    ⟨rfl, hd⟩ | ⟨rfl, hd⟩ | ⟨rfl, hd⟩ | ⟨rfl, hd⟩ | ⟨rfl, hd⟩ | ⟨h00, h01, h02, h03, h08, h09, h0A, h0B, h10, h11, h20, hd⟩
  all_goals simp [*]

/-- Settles O30: the ranges are the complement of the opcode map, and the count is over the 256 opcodes. -/
theorem illegalOpcodesAreTheListedRanges : Obligations.IllegalOpcodesAreTheListedRanges := by
  refine ⟨fun op arg => ?_, by decide +kernel⟩
  rw [decode_cmdWord, decodeFields_eq_illegal_iff]
  simp only [List.mem_cons, List.not_mem_nil, or_false, not_or, ← BitVec.toNat_inj, BitVec.toNat_ofNat]
  omega

/-- Settles O32: nine closed words. -/
theorem wordsOfTheSpecDecode : Obligations.WordsOfTheSpecDecode := by
  unfold Obligations.WordsOfTheSpecDecode
  decide

/-! ### The common behaviour of DATA1 to DATA4 -/

/-- The count of bytes of a DATAn is in `op[1:0]`, and its bytes are those of its argument (rules R73, R74). -/
theorem payloadOf_fields (h : payloadOf i = some bs) :
    bs.length = (i.opcode.extractLsb' 0 2).toNat + 1 ∧ i.opcode.extractLsb' 2 6 = 0b000010#6 ∧
      bs = bytesBe i.argument bs.length := by
  cases i with
  | data1 | data2 | data3 | data4 =>
    obtain rfl := Option.some.inj h
    simp [Instr.opcode, Instr.argument]
  | nop | init | ldtype | ldtypet | final | check | rd => cases h

/-- The meaning of a DATAn by its count of bytes (rule R140). -/
theorem exec_of_payloadOf (h : payloadOf i = some bs) : exec i s = absorbPayload bs.length i.argument s := by
  cases i with
  | data1 | data2 | data3 | data4 =>
    obtain rfl := Option.some.inj h
    rw [bytesBe_length]
    rfl
  | nop | init | ldtype | ldtypet | final | check | rd => cases h

/-- A DATAn in DATA whose bytes do not fit (rule R142). -/
theorem exec_data_of_overflow (hi : payloadOf i = some bs) (h0 : s.err = 0#4) (hp : s.phase = .data)
    (hl : 0xFFFFFFFF < s.len.toNat + bs.length) : exec i s = raiseErr .lengthOvf s := by
  rw [exec_of_payloadOf hi, absorbPayload, gated_of_noErr h0, inPhase_of_eq hp]
  exact if_pos hl

theorem isGated_of_payloadOf (h : payloadOf i = some bs) : isGated (.instr i) = true := by
  cases i with
  | data1 | data2 | data3 | data4 => rfl
  | nop | init | ldtype | ldtypet | final | check | rd => cases h

/-- Settles O21: the fields of a DATAn, then the four outcomes in the order of the checks. -/
theorem dataCommonBehaviour : Obligations.DataCommonBehaviour := by
  intro i bs s hi
  refine ⟨payloadOf_fields hi, fun h0 hp hl => ?_, fun h0 hp hl => ?_, fun h0 hp => ?_, fun he => ?_⟩
  · exact ⟨_, exec_data hi h0 hp hl, State.absorb_len_toNat hl, rfl⟩
  · exact ⟨_, exec_data_of_overflow hi h0 hp hl, recordErr_answer_frame h0 rfl⟩
  · exact exec_of_not_accepted_frame h0 (by simpa [accepts_of_payloadOf hi] using hp)
  · exact execDecoded_of_err (isGated_of_payloadOf hi) he

/-! ### The pseudo-instruction DATA -/

theorem length_pseudoData (bs : List Byte) : (pseudoData bs).length = (bs.length + 3) / 4 := by
  induction bs using pseudoData.induct with
  | case1 a b c d rest ih =>
    simp only [pseudoData, List.length_cons, ih]
    omega
  | case2 | case3 | case4 | case5 => simp [pseudoData]

/-- All commands of DATA but the last are DATA4 (rule R79). -/
theorem dropLast_pseudoData (bs : List Byte) : ∀ i ∈ (pseudoData bs).dropLast, ∃ v, i = .data4 v := by
  induction bs using pseudoData.induct with
  | case1 a b c d rest ih =>
    rw [pseudoData]
    cases htail : pseudoData rest with
    | nil => simp
    | cons j js =>
      rw [htail] at ih
      rw [List.dropLast_cons_cons]
      exact List.forall_mem_cons.mpr ⟨⟨_, rfl⟩, ih⟩
  | case2 | case3 | case4 | case5 => simp [pseudoData]

/-- The word read from n bytes fits in n bytes. -/
theorem fitsBytes_wordOfList (bs : List Byte) : fitsBytes bs.length (wordOfList bs) = true := by
  rw [fitsBytes, decide_eq_true_eq]
  induction bs using List.reverseRecOn with
  | nil => exact Nat.one_pos
  | append_singleton bs b ih =>
    rw [wordOfList_append_singleton, List.length_append, List.length_singleton, BitVec.toNat_or]
    apply Nat.or_lt_two_pow
    · rw [BitVec.toNat_shiftLeft, Nat.shiftLeft_eq, show 8 * (bs.length + 1) = 8 * bs.length + 8 from rfl, Nat.pow_add]
      exact (Nat.mod_le _ _).trans_lt (Nat.mul_lt_mul_of_pos_right ih (by decide))
    · rw [BitVec.toNat_setWidth_of_le (by omega)]
      exact b.isLt.trans_le (Nat.pow_le_pow_right (by decide) (by omega))

theorem wellFormed_pseudoData (bs : List Byte) : ∀ i ∈ pseudoData bs, i.wellFormed = true := by
  induction bs using pseudoData.induct with
  | case1 a b c d rest ih => exact List.forall_mem_cons.mpr ⟨rfl, ih⟩
  | case2 a b c => exact List.forall_mem_singleton.mpr (fitsBytes_wordOfList [a, b, c])
  | case3 a b => exact List.forall_mem_singleton.mpr (fitsBytes_wordOfList [a, b])
  | case4 a => exact List.forall_mem_singleton.mpr (fitsBytes_wordOfList [a])
  | case5 => exact List.forall_mem_nil _

/-- Settles O48: each part by induction along the groups of 4 bytes. -/
theorem pseudoDataCarriesItsBytes : Obligations.PseudoDataCarriesItsBytes := fun bs =>
  ⟨payloadBytes_pseudoData bs, length_pseudoData bs, dropLast_pseudoData bs, wellFormed_pseudoData bs⟩

/-! ### The assembler's operands -/

theorem asciiBytes_of_ascii (h : ∀ c ∈ cs, c.toNat < 128) :
    asciiBytes cs = some (cs.map fun c => BitVec.ofNat 8 c.toNat) := by
  induction cs with
  | nil => rfl
  | cons c cs ih =>
    obtain ⟨hc, hcs⟩ := List.forall_mem_cons.mp h
    rw [asciiBytes, if_pos hc, ih hcs]
    rfl

theorem asciiBytes_of_not_ascii (h : ∃ c ∈ cs, 128 ≤ c.toNat) : asciiBytes cs = none := by
  induction cs with
  | nil => simp at h
  | cons c cs ih =>
    rw [asciiBytes]
    split
    · rename_i hc
      obtain ⟨x, hx, hbad⟩ := h
      obtain rfl | hx := List.mem_cons.mp hx
      · exact absurd hc (Nat.not_lt.mpr hbad)
      · rw [ih ⟨x, hx, hbad⟩]
        rfl
    · rfl

theorem byteOperand_num_of_fits (h : v < 2 ^ (8 * n)) : byteOperand n (.num v) = some (BitVec.ofNat 32 v) :=
  if_pos h

theorem byteOperand_num_of_too_large (h : 2 ^ (8 * n) ≤ v) : byteOperand n (.num v) = none :=
  if_neg (Nat.not_lt.mpr h)

theorem byteOperand_str_of_ascii (h : ∀ c ∈ cs, c.toNat < 128) :
    byteOperand cs.length (.str cs) = some (wordOfList (cs.map fun c => BitVec.ofNat 8 c.toNat)) := by
  rw [byteOperand, if_pos rfl, asciiBytes_of_ascii h]
  rfl

theorem byteOperand_str_of_bad (h : cs.length ≠ n ∨ ∃ c ∈ cs, 128 ≤ c.toNat) : byteOperand n (.str cs) = none := by
  rw [byteOperand]
  split
  · rename_i hlen
    rw [asciiBytes_of_not_ascii (h.resolve_left (not_not.mpr hlen))]
    rfl
  · rfl

/-- An accepted operand of n bytes fits in n bytes (rule R78). -/
theorem fitsBytes_of_byteOperand {x : Word} (h : byteOperand n o = some x) : fitsBytes n x = true := by
  cases o with
  | num v =>
    rw [byteOperand, Option.ite_none_right_eq_some] at h
    obtain ⟨hv, h⟩ := h
    obtain rfl := Option.some.inj h
    rw [fitsBytes, BitVec.toNat_ofNat, decide_eq_true_eq]
    exact (Nat.mod_le _ _).trans_lt hv
  | str cs =>
    by_cases hbad : cs.length ≠ n ∨ ∃ c ∈ cs, 128 ≤ c.toNat
    · simp [byteOperand_str_of_bad hbad] at h
    · push Not at hbad
      obtain ⟨rfl, hascii⟩ := hbad
      rw [byteOperand_str_of_ascii hascii] at h
      obtain rfl := Option.some.inj h
      simpa using fitsBytes_wordOfList (cs.map fun c => BitVec.ofNat 8 c.toNat)
  | name | bytes => cases h

/-- A name that is no read register's has no index (rules R34, R78). -/
theorem lookup_regNames_of_not_mem (h : cs ∉ regNames.map Prod.fst) : regNames.lookup cs = none := by
  rw [List.lookup_eq_none_iff]
  intro p hp
  exact bne_iff_ne.mpr fun heq => h (List.mem_map.mpr ⟨p, hp, heq.symm⟩)

/-! ### The assembler -/

/-- The commands with an operand of 1 to 4 bytes: none is accepted without its operand (rule R78). -/
theorem assemble_byteCommand (h : (m, n, mk) ∈ byteCommands) :
    (n ≠ 0 ∧ n ≤ 4) ∧ ' ' ∉ m ∧ assemble m [] = none ∧ ∀ o, assemble m [o] = (byteOperand n o).map mk := by
  simp only [byteCommands, List.mem_cons, Prod.mk.injEq, List.not_mem_nil, or_false] at h
  rcases h with ⟨rfl, rfl, rfl⟩ | ⟨rfl, rfl, rfl⟩ | ⟨rfl, rfl, rfl⟩ | ⟨rfl, rfl, rfl⟩ | ⟨rfl, rfl, rfl⟩ |
    ⟨rfl, rfl, rfl⟩
  all_goals exact ⟨by omega, by decide, rfl, fun _ => rfl⟩

theorem assemble_byteCommand_str (h : (m, cs.length, mk) ∈ byteCommands) (hascii : ∀ c ∈ cs, c.toNat < 128) :
    ∃ x : Word, assemble m [.str cs] = some (mk x) ∧ bytesBe x cs.length = cs.map fun c => BitVec.ofNat 8 c.toNat := by
  obtain ⟨⟨-, hn⟩, -, -, hop⟩ := assemble_byteCommand h
  refine ⟨_, by rw [hop, byteOperand_str_of_ascii hascii]; rfl, ?_⟩
  simpa using bytesBe_wordOfList (bs := cs.map fun c => BitVec.ofNat 8 c.toNat) (by simpa using hn)

/-- Only the operand of DATA1 to DATA3 can be ill-formed, and the assembler has checked that it fits (rule R78). -/
theorem wellFormed_of_assemble {ops : List AsmOperand} (h : assemble m ops = some i) : i.wellFormed = true := by
  unfold assemble at h
  split at h
  · split_ifs at h <;> cases h <;> rfl
  · split_ifs at h
    all_goals obtain ⟨x, hx, rfl⟩ := Option.map_eq_some_iff.mp h
    · rfl
    · rfl
    · exact fitsBytes_of_byteOperand hx
    · exact fitsBytes_of_byteOperand hx
    · exact fitsBytes_of_byteOperand hx
    · rfl
    · rfl
    · rfl
  · cases h

/-- Settles O49: well-formedness of every answer, the byte operands by `assemble_byteCommand`, and CHECK, RD and the commands
without operand by their own arms. -/
theorem assembledCommandsAreWellFormed : Obligations.AssembledCommandsAreWellFormed := by
  refine ⟨fun _ _ _ => wellFormed_of_assemble, fun m n mk h => ?_,
    fun v hv => congrArg (Option.map Instr.check) (if_pos hv),
    fun v hv => congrArg (Option.map Instr.check) (if_neg (Nat.not_lt.mpr hv)),
    fun _ => ⟨rfl, rfl⟩, fun _ => rfl, rfl,
    fun v hv => congrArg (Option.map Instr.rd) (if_pos hv),
    fun v hv => congrArg (Option.map Instr.rd) (if_neg (Nat.not_lt.mpr hv)),
    rfl, rfl, rfl, rfl, rfl, rfl, rfl,
    fun cs hcs => congrArg (Option.map Instr.rd) (lookup_regNames_of_not_mem hcs),
    fun _ => rfl, fun _ => rfl, rfl, rfl, rfl, rfl, fun _ => ⟨rfl, rfl, rfl⟩, fun _ _ _ _ => rfl⟩
  obtain ⟨-, -, hnil, hop⟩ := assemble_byteCommand h
  refine ⟨fun v hv => ?_, fun v hv => ?_, ?_, fun cs hbad => ?_, fun _ => hop _, fun _ => hop _, hnil⟩
  · rw [hop, byteOperand_num_of_fits hv]
    rfl
  · rw [hop, byteOperand_num_of_too_large hv]
    rfl
  · rintro cs rfl hascii
    exact assemble_byteCommand_str h hascii
  · rw [hop, byteOperand_str_of_bad hbad]
    rfl

/-! ### The text of a command -/

theorem digitValue_hexDigit (h : n < 16) : digitValue (hexDigit n) = some n := by
  decide +revert

/-- The k printed digits of a value are read on from a value as the number they write together. -/
theorem digitsValue_hexDigits (acc k v : Nat) :
    digitsValue 16 acc (hexDigits k v) = some (acc * 16 ^ k + v % 16 ^ k) := by
  induction k generalizing acc with
  | zero => simp [hexDigits, digitsValue, Nat.mod_one]
  | succ k ih =>
    have hdigit : v / 16 ^ k % 16 < 16 := Nat.mod_lt _ (by decide)
    have hvalue : (acc * 16 + v / 16 ^ k % 16) * 16 ^ k + v % 16 ^ k = acc * 16 ^ (k + 1) + v % 16 ^ (k + 1) := by
      rw [Nat.mod_pow_succ]
      ring
    rw [hexDigits, digitsValue, digitValue_hexDigit hdigit]
    simp only [hdigit, if_true, ih, hvalue]

theorem lexOperand_hexText (hk : k ≠ 0) (hv : v < 16 ^ k) : lexOperand (hexText k v) = some (.num v) := by
  have hnumber : lexNumber (hexText k v) = some v := by
    obtain ⟨k, rfl⟩ := Nat.exists_eq_succ_of_ne_zero hk
    have hread := digitsValue_hexDigits 0 (k + 1) v
    rw [Nat.zero_mul, Nat.zero_add, Nat.mod_eq_of_lt hv] at hread
    exact hread
  have hquote : (hexText k v).head? ≠ some quoteChar := fun h => absurd (Option.some.inj h) (by decide)
  rw [lexOperand, if_neg hquote, hnumber]

/-- A line is cut at its first space into mnemonic and operand (rule R78). -/
theorem assembleLine_operand {c : Char} (hm : ' ' ∉ m) (hc : c ≠ ' ') (ho : lexOperand (c :: cs) = some o) :
    assembleLine (m ++ ' ' :: c :: cs) = assemble m [o] := by
  have hbefore : ∀ x ∈ m, (x != ' ') = true := fun x hx => bne_iff_ne.mpr fun heq => hm (heq ▸ hx)
  have htake : (m ++ ' ' :: c :: cs).takeWhile (· != ' ') = m := by
    simp [List.takeWhile_append_of_pos hbefore]
  have hdrop : ((m ++ ' ' :: c :: cs).dropWhile (· != ' ')).dropWhile (· == ' ') = c :: cs := by
    simp [List.dropWhile_append_of_pos hbefore, hc]
  rw [assembleLine, htake, hdrop, if_neg (List.cons_ne_nil _ _), ho]

theorem assembleLine_hexText (hm : ' ' ∉ m) (hk : k ≠ 0) (hv : v < 16 ^ k) :
    assembleLine (m ++ ' ' :: hexText k v) = assemble m [.num v] :=
  assembleLine_operand hm (by decide) (lexOperand_hexText hk hv)

/-- A command with an operand of n bytes is read from its mnemonic and the 2n hexadecimal digits of its operand. -/
theorem assembleLine_byteCommand (h : (m, n, mk) ∈ byteCommands) (hfits : fitsBytes n arg = true) :
    assembleLine (m ++ ' ' :: hexText (2 * n) arg.toNat) = some (mk arg) := by
  have hv : arg.toNat < 2 ^ (8 * n) := of_decide_eq_true hfits
  have hdigits : 2 ^ (8 * n) = 16 ^ (2 * n) := by rw [show 8 * n = 4 * (2 * n) by omega, Nat.pow_mul 2 4]
  obtain ⟨⟨hn, -⟩, hm, -, hop⟩ := assemble_byteCommand h
  rw [assembleLine_hexText hm (by omega) (hdigits ▸ hv), hop, byteOperand_num_of_fits hv, BitVec.ofNat_toNat,
    BitVec.setWidth_eq]
  rfl

/-- CHECK is read from its mnemonic and the 8 hexadecimal digits of its operand. -/
theorem assembleLine_check (c : Word) : assembleLine (instrText (.check c)) = some (.check c) := by
  have hline : assembleLine (instrText (.check c)) = assemble ['C','H','E','C','K'] [.num c.toNat] :=
    assembleLine_hexText (m := ['C','H','E','C','K']) (k := 8) (by decide) (by decide) c.isLt
  have hoperand : crcOperand (.num c.toNat) = some c := by
    rw [crcOperand, if_pos c.isLt, BitVec.ofNat_toNat, BitVec.setWidth_eq]
  exact hline.trans (congrArg (Option.map Instr.check) hoperand)

/-- The text of a well-formed command assembles to the command (rule R78). -/
theorem assembleLine_instrText (h : i.wellFormed = true) : assembleLine (instrText i) = some i := by
  cases i with
  | nop | init | final => decide
  | ldtype t =>
    exact assembleLine_byteCommand (m := ['L','D','T','Y','P','E']) (n := 4) (by simp [byteCommands]) (fitsBytes_four t)
  | ldtypet t =>
    exact assembleLine_byteCommand (m := ['L','D','T','Y','P','E','T']) (n := 4) (by simp [byteCommands])
      (fitsBytes_four t)
  | data1 v => exact assembleLine_byteCommand (m := ['D','A','T','A','1']) (n := 1) (by simp [byteCommands]) h
  | data2 v => exact assembleLine_byteCommand (m := ['D','A','T','A','2']) (n := 2) (by simp [byteCommands]) h
  | data3 v => exact assembleLine_byteCommand (m := ['D','A','T','A','3']) (n := 3) (by simp [byteCommands]) h
  | data4 v =>
    exact assembleLine_byteCommand (m := ['D','A','T','A','4']) (n := 4) (by simp [byteCommands]) (fitsBytes_four v)
  | check c => exact assembleLine_check c
  | rd r => decide +revert

/-- The argument of a well-formed command has no ignored bit set (rules R75, R78). -/
theorem argument_and_usedArg (h : i.wellFormed = true) : i.argument &&& i.usedArg = i.argument := by
  have hdecode : decodeFields i.opcode i.argument = .instr i := (decode_cmdWord _ _).symm.trans (decodeOfEncode i h)
  obtain ⟨-, harg, -⟩ := decodeFields_eq_instr hdecode
  exact harg.symm

/-- The word of a well-formed command is printed as the command's text, without a comment (rules R75, R78). -/
theorem disassemble_encode (h : i.wellFormed = true) : disassemble (encode i) = instrText i := by
  have hignored : ignoredArg i (encode i) = 0#32 := by
    rw [ignoredArg, encode, Laws.cmdArg_cmdWord, ← argument_and_usedArg h, BitVec.and_assoc, BitVec.and_not_self]
    exact BitVec.and_zero
  rw [disassemble, decodeOfEncode i h]
  exact if_pos hignored

/-- Settles O50: the disassembler prints the command's text, and the assembler reads it back. -/
theorem printedCommandsAssembleAgain : Obligations.PrintedCommandsAssembleAgain := by
  intro i h
  rw [disassemble_encode h]
  exact ⟨rfl, assembleLine_instrText h⟩

end Sys2Proof.Machine
end

-- ==== Proofs: 40_type_decoder.md (rules R100 to R112) ====
section

namespace Sys2Proof.Machine

variable {s : State} {i : Instr} {ty : Word}

/-! ### VALID -/

/-- VALID is the complement of bit 13 of TYPE (rules R108, R110). -/
theorem valid_eq (t : Word) : valid t = !t.getLsbD 13 := rsvOk_eq t

/-- Settles O9: VALID as one bit of TYPE, and the two types of the rule. -/
theorem validDependsOnBitThirteenAlone : Obligations.ValidDependsOnBitThirteenAlone := by
  refine ⟨fun t u h => ?_, fun t u h => ?_, fun s => ?_, rfl, rfl, rfl, rfl⟩
  · rw [valid_eq, valid_eq, h]
  · rw [valid_eq, valid_eq]
    exact fun hvalid => h (Bool.not_inj hvalid)
  · obtain ⟨-, -, -, -, hvalid, -⟩ := flagBits_getLsbD s.typeCode
    exact (s.flags_getLsbD 4).trans hvalid

/-! ### The type loads -/

/-- ALPHA is 1 where all 4 type bytes are letters (rule R112). -/
theorem allAlpha_eq_true_iff (t : Word) : allAlpha t = true ↔
    alpha (typeByte0 t) = true ∧ alpha (typeByte1 t) = true ∧ alpha (typeByte2 t) = true ∧
      alpha (typeByte3 t) = true := by
  simp only [allAlpha, Bool.and_eq_true, and_assoc]

/-- ALPHA is 0 where one of the 4 type bytes is no letter (rule R112). -/
theorem allAlpha_eq_false_iff (t : Word) : allAlpha t = false ↔
    alpha (typeByte0 t) = false ∨ alpha (typeByte1 t) = false ∨ alpha (typeByte2 t) = false ∨
      alpha (typeByte3 t) = false := by
  simp only [allAlpha, Bool.and_eq_false_iff, or_assoc]

/-- ALPHA shows in FLAGS[5] what TYPE holds after a load (rules R31, R112). -/
theorem loadType_answer_alphaFlag (s : State) (t : Word) : (s.loadType t).answer.flags.getLsbD 5 = allAlpha t := by
  obtain ⟨-, -, -, -, -, halpha⟩ := flagBits_getLsbD t
  exact (State.flags_getLsbD _ 5).trans halpha

/-- LDTYPET in TYPE refuses a type that is not alphabetic (rules R102, R103). -/
theorem exec_ldtypet_of_not_alpha (h0 : s.err = 0#4) (hp : s.phase = .type) (hA : allAlpha ty = false) :
    exec (.ldtypet ty) s = raiseErr .invalidType s := by
  rw [exec, execLdtypet, gated_of_noErr h0, inPhase_of_eq hp, hA]
  exact if_neg Bool.false_ne_true

/-- A type load is accepted in TYPE only (rule R25). -/
theorem not_accepts_load (hi : i = .ldtype ty ∨ i = .ldtypet ty) (hp : s.phase ≠ .type) : s.phase.accepts i = false := by
  rcases hi with rfl | rfl <;> exact beq_eq_false_iff_ne.mpr hp

/-- Settles O15: the decoder's arm, then the outcomes in the order of the checks. -/
theorem ldtypeLoadsRawType : Obligations.LdtypeLoadsRawType := by
  intro ty s
  refine ⟨decode_cmdWord _ _, fun h0 hp => ?_, fun h0 hp => ?_, fun he => ?_⟩
  · exact ⟨_, exec_load (.inl rfl) h0 hp, rfl⟩
  · exact exec_of_not_accepted_frame h0 (not_accepts_load (.inl rfl) hp)
  · exact execDecoded_of_err (d := .instr (.ldtype ty)) rfl he

/-- Settles O16: as for LDTYPE, with the letter check between the phase check and the load. -/
theorem ldtypetLoadsLetters : Obligations.LdtypetLoadsLetters := by
  intro ty s
  refine ⟨decode_cmdWord _ _, fun h0 hp hb0 hb1 hb2 hb3 => ?_, fun h0 hp => ?_, fun h0 hp hbad => ?_, fun he => ?_⟩
  · have hA : allAlpha ty = true := (allAlpha_eq_true_iff ty).mpr ⟨hb0, hb1, hb2, hb3⟩
    exact ⟨_, exec_load (.inr ⟨rfl, hA⟩) h0 hp, (loadType_answer_alphaFlag s ty).trans hA, rfl⟩
  · exact exec_of_not_accepted_frame h0 (not_accepts_load (.inr rfl) hp)
  · have hA : allAlpha ty = false := (allAlpha_eq_false_iff ty).mpr hbad
    exact ⟨_, exec_ldtypet_of_not_alpha h0 hp hA, recordErr_answer_frame h0 rfl⟩
  · exact execDecoded_of_err (d := .instr (.ldtypet ty)) rfl he

end Sys2Proof.Machine
end

-- ==== Proofs: 41_crc_generator.md (rules R130 to R148) ====
section

namespace Sys2Proof.Machine

variable {s : State} {i : Instr} {arg x : Word} {a b : Byte} {n : Nat}

/-! ### One shift of the register -/

/-- The register's polynomial is the bit reversal of the algorithm's (rules R130, R132). -/
theorem reverse_polynomial_eq_crcPoly : (0x04C11DB7#32).reverse = crcPoly := by decide +kernel

/-- One shift moves every bit down by one, and a 1 shifted out adds the polynomial (rule R130). -/
theorem crcShift_getLsbD (x : Word) (k : Nat) :
    (crcShift x).getLsbD k = Bool.xor (x.getLsbD (k + 1)) (x.getLsbD 0 && crcPoly.getLsbD k) := by
  unfold crcShift
  cases x.getLsbD 0 <;> simp [Nat.add_comm]

/-- Settles O25: the law of one shift, and the eight shifts of the loop. -/
theorem shiftDividesByThePolynomial : Obligations.ShiftDividesByThePolynomial := by
  refine ⟨fun c k => ?_, reverse_polynomial_eq_crcPoly, fun c b => rfl⟩
  rw [reverse_polynomial_eq_crcPoly]
  exact crcShift_getLsbD c k

/-- The bit shifted out shows as the top bit, which the polynomial has and the moved bits have not. -/
theorem crcShift_topBit (x : Word) : (crcShift x).getLsbD 31 = x.getLsbD 0 := by
  have htop : crcPoly.getLsbD 31 = true := by decide
  rw [crcShift_getLsbD, htop, BitVec.getLsbD_of_ge x 32 (by omega), Bool.and_true, Bool.false_xor]

/-- A shift loses nothing: the bit shifted out is known again, and with it every other bit. -/
theorem crcShift_injective : Function.Injective crcShift := by
  intro x y h
  have hlow : x.getLsbD 0 = y.getLsbD 0 := by rw [← crcShift_topBit, h, crcShift_topBit]
  apply BitVec.eq_of_getLsbD_eq
  intro k _
  cases k with
  | zero => exact hlow
  | succ k =>
    have hbit := congrArg (·.getLsbD k) h
    simp only [crcShift_getLsbD, hlow] at hbit
    exact Bool.xor_left_inj.mp hbit

/-- A shift is linear over exclusive-or. -/
theorem crcShift_xor (x y : Word) : crcShift (x ^^^ y) = crcShift x ^^^ crcShift y := by
  apply BitVec.eq_of_getLsbD_eq
  intro k _
  simp only [BitVec.getLsbD_xor, crcShift_getLsbD, Bool.and_xor_distrib_right, Bool.xor_assoc, Bool.xor_left_comm]

/-- Where the bit shifted out is 0, a shift only moves the bits. -/
theorem crcShift_of_low_zero (h : x.getLsbD 0 = false) : crcShift x = x >>> 1 :=
  if_neg (Bool.eq_false_iff.mp h)

/-! ### n shifts of the register -/

theorem crcShifts_injective (n : Nat) : Function.Injective (crcShifts n) := by
  induction n with
  | zero => exact Function.injective_id
  | succ n ih => exact ih.comp crcShift_injective

theorem crcShifts_xor (n : Nat) (x y : Word) : crcShifts n (x ^^^ y) = crcShifts n x ^^^ crcShifts n y := by
  induction n generalizing x y with
  | zero => rfl
  | succ n ih => exact (congrArg (crcShifts n) (crcShift_xor x y)).trans (ih _ _)

/-- Over n low zeros, n shifts only move the bits. -/
theorem crcShifts_of_low_zeros (h : ∀ k < n, x.getLsbD k = false) : crcShifts n x = x >>> n := by
  induction n generalizing x with
  | zero => exact (BitVec.ushiftRight_zero x).symm
  | succ n ih =>
    have hmoved : ∀ k < n, (x >>> 1).getLsbD k = false := fun k hk => by
      rw [BitVec.getLsbD_ushiftRight]
      exact h (1 + k) (by omega)
    rw [crcShifts, crcShift_of_low_zero (h 0 (by omega)), ih hmoved, ← BitVec.shiftRight_add, Nat.add_comm]

/-! ### The table form -/

/-- A byte added to the register is below the bits that eight shifts keep. -/
theorem xor_byte_shiftRight (x : Word) (b : Byte) : (x ^^^ b.setWidth 32) >>> 8 = x >>> 8 := by
  have hbyte : b.setWidth 32 >>> 8 = 0#32 := by
    apply BitVec.eq_of_getLsbD_eq
    intro k _
    simp
  rw [BitVec.ushiftRight_xor_distrib, hbyte, BitVec.xor_zero]

/-- Eight shifts move the high bits down and add the table entry of the low byte: the shifts are linear, and no 1 of the high
bits is shifted out. -/
theorem crcShifts_eight (x : Word) : crcShifts 8 x = (x >>> 8) ^^^ crcByte 0#32 (x.setWidth 8) := by
  have hhigh : crcShifts 8 (x ^^^ (x.setWidth 8).setWidth 32) = x >>> 8 := by
    rw [crcShifts_of_low_zeros, xor_byte_shiftRight]
    intro k hk
    have hk32 : k < 32 := by omega
    simp [hk, hk32]
  calc crcShifts 8 x
      = crcShifts 8 ((x ^^^ (x.setWidth 8).setWidth 32) ^^^ (x.setWidth 8).setWidth 32) := by
        rw [BitVec.xor_assoc, BitVec.xor_self, BitVec.xor_zero]
    _ = (x >>> 8) ^^^ crcShifts 8 ((x.setWidth 8).setWidth 32) := by rw [crcShifts_xor, hhigh]
    _ = (x >>> 8) ^^^ crcByte 0#32 (x.setWidth 8) := by rw [crcByte, BitVec.zero_xor]

/-- The one-byte step by the table entry of the low byte (rule R148). -/
theorem crcByte_eq_table (x : Word) (b : Byte) :
    crcByte x b = (x >>> 8) ^^^ crcByte 0#32 ((x ^^^ b.setWidth 32).setWidth 8) := by
  rw [crcByte, crcShifts_eight, xor_byte_shiftRight]

/-- Settles O24: both forms are the split of the register into its high bits and its low byte. -/
theorem tableFormEqualsByteStep : Obligations.TableFormEqualsByteStep := by
  refine ⟨fun c b => ?_, crcByte_eq_table, by decide, by decide⟩
  rw [crcByteByTable, crcTable, ← BitVec.setWidth_eq_extractLsb' (by omega)]
  exact crcByte_eq_table c b

/-- Settles O26: the definition of the checksum, the polynomial, and the check value by running the register. -/
theorem checksumOfMessage : Obligations.ChecksumOfMessage :=
  ⟨fun _ => rfl, reverse_polynomial_eq_crcPoly.symm, by decide +kernel⟩

/-! ### Error detection -/

/-- Different registers stay different over the same byte. -/
theorem crcByte_injective_register (b : Byte) : Function.Injective (crcByte · b) := fun _ _ h =>
  (BitVec.xor_left_inj _).mp (crcShifts_injective 8 h)

/-- Different bytes leave different registers. -/
theorem crcByte_injective_byte (x : Word) : Function.Injective (crcByte x) := by
  intro a b h
  have hwide : a.setWidth 32 = b.setWidth 32 := (BitVec.xor_right_inj x).mp (crcShifts_injective 8 h)
  simpa using congrArg (·.setWidth 8) hwide

/-- Different registers stay different over the same bytes (rule R131). -/
theorem crcBytes_injective (bs : List Byte) : Function.Injective (crcBytes · bs) := by
  induction bs with
  | nil => exact Function.injective_id
  | cons b bs ih => exact ih.comp (crcByte_injective_register b)

/-- Messages that differ in one byte have different checksums. -/
theorem crc32_ne_of_byte_ne (before after : List Byte) (h : a ≠ b) :
    crc32 (before ++ a :: after) ≠ crc32 (before ++ b :: after) := by
  intro heq
  have hregister : crcBytes crcInit (before ++ a :: after) = crcBytes crcInit (before ++ b :: after) :=
    (BitVec.xor_left_inj _).mp heq
  rw [crcBytes_append, crcBytes_append] at hregister
  exact h (crcByte_injective_byte _ (crcBytes_injective after hregister))

/-- A byte with one bit changed is another byte. -/
theorem xor_bit_ne (b : Byte) (k : Fin 8) : b ^^^ (1#8 <<< k.val) ≠ b := by
  have hbit : 1#8 <<< k.val ≠ 0#8 := by
    revert k
    decide
  exact fun h => hbit ((BitVec.xor_right_inj b).mp (h.trans BitVec.xor_zero.symm))

/-- Settles O27: the step loses nothing, so the change of one byte survives to the end; and VERIFY refuses any other word than
the checksum. -/
theorem singleBitChangeIsDetected : Obligations.SingleBitChangeIsDetected := by
  refine ⟨fun before after b k => crc32_ne_of_byte_ne before after (xor_bit_ne b k), ?_⟩
  intro s ty ty' d d' before after b k hmessage hchanged hl
  have hlength : d'.length = d.length := by
    have h := congrArg List.length hmessage
    have h' := congrArg List.length hchanged
    simp only [List.length_append, List.length_cons, bytesBe_length] at h h'
    omega
  have hne : crc32 (bytesBe ty 4 ++ d) ≠ crc32 (bytesBe ty' 4 ++ d') := by
    rw [hmessage, hchanged]
    exact (crc32_ne_of_byte_ne before after (xor_bit_ne b k)).symm
  obtain ⟨t, hrun, -, herr, hmatch⟩ := runs_pseudoVerify_mismatch s (hlength ▸ hl) hne
  exact ⟨t, hrun, herr, hmatch⟩

/-! ### INIT -/

/-- After a clear STATUS shows PHASE alone (rules R30, R231). -/
theorem State.clear_status (s : State) (p : Phase) : (s.clear p).status = p.code.setWidth 32 := by
  rw [State.status, State.statusByte, State.clear_err, State.clear_matchFlag, State.clear_phase]
  cases p <;> rfl

/-- After a clear FLAGS are those of the type code 0 (rules R31, R231). -/
theorem State.clear_flags (s : State) (p : Phase) : (s.clear p).flags = 0x00000017#32 := by
  rw [State.flags, State.clear_typeCode]
  decide

/-- Settles O5: INIT ignores its argument, and clears every element. -/
theorem initStartsComputation : Obligations.InitStartsComputation := by
  refine ⟨fun arg => decode_cmdWord _ _, fun s => ⟨?_, fun t h => ?_⟩⟩
  · rw [exec, execInit, finish, State.answer, State.clear_status]
    rfl
  · obtain rfl := finish_eq_next.mp h
    exact State.clear_flags s .type

/-! ### DATA1 to DATA4 -/

/-- The outcomes of a DATAn of n bytes, with the largest length at which it completes (rules R140, R142). -/
theorem exec_data_outcomes (hi : payloadOf i = some (bytesBe arg n)) (hn : n ≤ 4) (s : State) :
    (s.err = 0#4 → s.phase = .data → s.len.toNat ≤ 0xFFFFFFFF - n → exec i s = .next
      { s with crc := crcBytes s.crc (bytesBe arg n), len := s.len + BitVec.ofNat 32 n, rsp := some s.status }) ∧
    (s.err = 0#4 → s.phase ≠ .data → ∃ t, exec i s = .next t ∧ t = { s with err := 3#4, rsp := some t.status }) ∧
    (s.err = 0#4 → s.phase = .data → 0xFFFFFFFF - n < s.len.toNat →
      ∃ t, exec i s = .next t ∧ t = { s with err := 4#4, rsp := some t.status }) ∧
    (s.err ≠ 0#4 → exec i s = .next { s with rsp := some s.status }) := by
  obtain ⟨-, -, hoverflow, hphase, hgate⟩ := dataCommonBehaviour i _ s hi
  rw [bytesBe_length] at hoverflow
  refine ⟨fun h0 hp hl => ?_, hphase, fun h0 hp hl => hoverflow h0 hp (by omega), hgate⟩
  have habsorb := exec_data hi h0 hp (by rw [bytesBe_length]; omega)
  rw [State.absorb, bytesBe_length] at habsorb
  exact habsorb

/-- Settles O17: the outcomes of a DATAn, for one byte. -/
theorem dataOneAbsorbsOneByte : Obligations.DataOneAbsorbsOneByte := fun arg s =>
  ⟨(decode_cmdWord _ _).trans (congrArg (Decoded.instr ∘ Instr.data1) (lowBytes_eq_and 1 arg)),
    exec_data_outcomes (i := .data1 arg) (n := 1) rfl (by omega) s⟩

/-- Settles O18: the outcomes of a DATAn, for two bytes. -/
theorem dataTwoAbsorbsTwoBytes : Obligations.DataTwoAbsorbsTwoBytes := fun arg s =>
  ⟨(decode_cmdWord _ _).trans (congrArg (Decoded.instr ∘ Instr.data2) (lowBytes_eq_and 2 arg)),
    exec_data_outcomes (i := .data2 arg) (n := 2) rfl (by omega) s⟩

/-- Settles O19: the outcomes of a DATAn, for three bytes. -/
theorem dataThreeAbsorbsThreeBytes : Obligations.DataThreeAbsorbsThreeBytes := fun arg s =>
  ⟨(decode_cmdWord _ _).trans (congrArg (Decoded.instr ∘ Instr.data3) (lowBytes_eq_and 3 arg)),
    exec_data_outcomes (i := .data3 arg) (n := 3) rfl (by omega) s⟩

/-- Settles O20: the outcomes of a DATAn, for four bytes. -/
theorem dataFourAbsorbsFourBytes : Obligations.DataFourAbsorbsFourBytes := fun arg s =>
  ⟨decode_cmdWord _ _, exec_data_outcomes (i := .data4 arg) (n := 4) rfl (by omega) s⟩

/-- Settles O42: only a DATAn writes LEN, and it absorbs only where the sum fits. -/
theorem lengthNeverWraps : Obligations.LengthNeverWraps := by
  intro i s t h hinit
  cases hi : payloadOf i with
  | none =>
    obtain ⟨-, -, -, hlen, -⟩ := (execDecoded_effect (d := .instr i) h).writers (by simpa using hinit)
    refine .inl (congrArg _ (not_not.mp fun hne => ?_))
    obtain ⟨j, bs, hj, hbs⟩ := hlen hne
    cases hj
    simp [hi] at hbs
  | some bs =>
    rw [exec_of_payloadOf hi] at h
    rcases absorbPayload_cases h with ⟨-, rfl⟩ | ⟨-, -, rfl⟩ | ⟨-, -, -, rfl⟩ | ⟨-, -, hl, rfl⟩
    · exact .inl rfl
    · exact .inl (by simp)
    · exact .inl (by simp)
    · obtain ⟨-, -, hbytes⟩ := payloadOf_fields hi
      rw [← hbytes]
      exact .inr ⟨bs, rfl, State.absorb_len_toNat hl⟩

/-! ### FINAL, CHECK and the whole sequence -/

/-- Settles O22: the outcomes of FINAL in the order of the checks. -/
theorem finalCapturesChecksum : Obligations.FinalCapturesChecksum := by
  refine ⟨fun arg => decode_cmdWord _ _, fun s => ⟨fun h0 hp => ?_, fun h0 hp => ?_, fun he => ?_⟩⟩
  · exact ⟨_, exec_final h0 hp, rfl⟩
  · exact exec_of_not_accepted_frame h0 (beq_eq_false_iff_ne.mpr hp)
  · exact execDecoded_of_err (d := .instr .final) rfl he

/-- Settles O23: the outcomes of CHECK in the order of the checks, with STATUS after each verdict. -/
theorem checkComparesResult : Obligations.CheckComparesResult := by
  intro c s
  refine ⟨decode_cmdWord _ _, fun h0 hp hr => ?_, fun h0 hp hr => ?_, fun h0 hp => ?_, fun he => ?_⟩
  · have hstatus : (s.setMatch true).status = 0x00000007#32 := State.status_of_match h0 rfl hp
    rw [exec_check_of_eq h0 hp hr, State.answer, hstatus]
    rfl
  · have hstatus : ({ s with matchFlag := false, err := 2#4 } : State).status = 0x00000023#32 :=
      State.status_of_mismatch rfl rfl hp
    rw [exec_check_of_ne h0 hp hr, State.answer, hstatus]
    rfl
  · exact exec_of_not_accepted_frame h0 (beq_eq_false_iff_ne.mpr hp)
  · exact execDecoded_of_err (d := .instr (.check c)) rfl he

/-- Settles O51: the sequence leaves the elements of the chunk's state. -/
theorem chunkSequenceComputesChecksum : Obligations.ChunkSequenceComputesChecksum := by
  intro s ty is d load hb hl hload
  obtain ⟨t, hrun, -, hresult, htype, hphase, hlen, hmatch, herr⟩ := reaches_chunk (s := s) hload hb hl
  exact ⟨t, hrun, hresult.trans chunkState_result, hlen ▸ chunkState_len_toNat hl, htype, hphase, herr, hmatch⟩

end Sys2Proof.Machine
end

-- ==== Proofs: 42_control.md (rules R170 to R174) ====
section

namespace Sys2Proof.Machine

variable {s : State} {op : BitVec 8}

/-! ### NOP -/

/-- NOP answers STATUS and writes nothing else (rule R170). -/
theorem exec_nop (s : State) : exec .nop s = .next s.answer := rfl

/-- Settles O12: the decoder's case for 0x00, then NOP's meaning. -/
theorem nopAnswersStatus : Obligations.NopAnswersStatus :=
  ⟨fun arg => decode_cmdWord 0x00#8 arg, exec_nop⟩

/-! ### Illegal opcodes -/

/-- An illegal opcode raises E_ILLEGAL_OP where no error stands (rule R174). -/
theorem execDecoded_illegal_of_noErr (h0 : s.err = 0#4) : execDecoded (.illegal op) s = raiseErr .illegalOp s := by
  rw [execDecoded, execIllegal, gated_of_noErr h0]

/-- Settles O14: with the gate open the frame of a raise, and with the gate shut STATUS alone. -/
theorem illegalOpcodeRaises : Obligations.IllegalOpcodeRaises := by
  intro w op s hw
  rw [hw]
  refine ⟨fun h0 => ?_, fun he => ?_⟩
  · exact ⟨_, execDecoded_illegal_of_noErr h0, recordErr_answer_frame h0 rfl⟩
  · exact execDecoded_of_err (d := .illegal op) rfl he

end Sys2Proof.Machine
end

-- ==== Proofs: 60_exceptions.md (rules R200 to R211) ====
section

namespace Sys2Proof.Machine

variable {s t : State} {d : Decoded} {x : HostInput} {xs : List HostInput}

/-! ### ERR is sticky -/

/-- The inputs that clear ERR (rule R205). -/
theorem clearsErr_iff (x : HostInput) : clearsErr x = true ↔ x = .rst ∨ ∃ w, x = .command w ∧ decode w = .instr .init := by
  cases x with
  | command w => simp [clearsErr]
  | takeResponse => simp [clearsErr]
  | rst => simp [clearsErr]

/-- While ERR is not 0 no command but INIT changes an element: NOP and RD write none, and the gate is shut (rule R203). -/
theorem sameElements_of_err (he : s.err ≠ 0#4) (hinit : d ≠ .instr .init) (h : execDecoded d s = .next t) :
    sameElements t s := by
  rcases execDecoded_cases h with ⟨-, rfl⟩ | ⟨i, -, rfl⟩ | ⟨hd, -⟩ | ⟨-, -, rfl⟩ | ⟨-, h0, -⟩
  · exact sameElements_respond s _
  · exact sameElements_respond s _
  · exact absurd hd hinit
  · exact sameElements_respond s _
  · exact absurd h0 he

/-- While ERR is not 0 a step on an input that does not clear it keeps every element (rule R205). -/
theorem step_keeps_elements_of_err (xs : List HostInput) (he : s.err ≠ 0#4) (hx : clearsErr x = false) :
    ∃ t, step { s with inputs := x :: xs } = .next t ∧ sameElements t s := by
  cases x with
  | rst => cases hx
  | takeResponse => exact ⟨_, rfl, sameElements_takeRsp s xs⟩
  | command w =>
    have hinit : decode w ≠ .instr .init := by simpa [clearsErr] using hx
    obtain ⟨t, hexec, -⟩ := execDecoded_answers (decode w) ({ s with inputs := xs } : State).takeRsp
    have hkeep := sameElements_of_err (s := ({ s with inputs := xs } : State).takeRsp) he hinit hexec
    exact ⟨t, hexec, hkeep.trans (sameElements_takeRsp s xs)⟩

/-- While ERR is not 0 a run over inputs that do not clear it keeps every element (rule R205). -/
theorem runs_keep_elements_of_err (he : s.err ≠ 0#4) (hxs : ∀ x ∈ xs, clearsErr x = false) :
    ∃ t, runs xs s t ∧ sameElements t s := by
  induction xs generalizing s with
  | nil => exact ⟨_, runs_nil.mpr rfl, sameElements_takeRsp s []⟩
  | cons x xs ih =>
    obtain ⟨hx, hxs⟩ := List.forall_mem_cons.mp hxs
    obtain ⟨u, hstep, hu⟩ := step_keeps_elements_of_err xs he hx
    have hue : u.err ≠ 0#4 := by
      obtain ⟨-, -, -, -, -, -, herr⟩ := hu
      rwa [herr]
    obtain ⟨t, hrun, ht⟩ := ih hue hxs
    exact ⟨t, runs_cons.mpr ⟨u, hstep, hrun⟩, ht.trans hu⟩

/-- INIT ends in a clear, from every state (rule R135). -/
theorem execDecoded_init (s : State) : execDecoded (.instr .init) s = .next (s.clear .type).answer := rfl

/-- `rst` and INIT leave ERR = 0, each in one step (rules R135, R230). -/
theorem runs_clears_err (s : State) (hx : clearsErr x = true) : ∃ t, runs [x] s t ∧ t.err = 0#4 := by
  simp only [runs_singleton]
  rcases (clearsErr_iff x).mp hx with rfl | ⟨w, rfl, hw⟩
  · exact ⟨_, rfl, State.applyRst_err⟩
  · rw [step_command, hw]
    exact ⟨_, execDecoded_init _, rfl⟩

/-- Settles O43: the run that keeps every element, by induction on the inputs; and the one step of a clear. -/
theorem errorSticksUntilInitOrRst : Obligations.ErrorSticksUntilInitOrRst :=
  ⟨fun _ _ => runs_keep_elements_of_err, fun _ s => runs_clears_err s, clearsErr_iff⟩

/-! ### The gate -/

/-- The commands that are not gated (rule R203). -/
theorem isGated_eq_false_iff (d : Decoded) :
    isGated d = false ↔ d = .instr .nop ∨ (∃ i, d = .instr (.rd i)) ∨ d = .instr .init := by
  cases d with
  | illegal op => simp [isGated]
  | instr i => cases i <;> simp [isGated]

/-- A clear leaves the reset values but for PHASE (rule R234). -/
theorem sameElements_clear (s : State) (p : Phase) : sameElements (s.clear p).answer { State.reset with phase := p } :=
  ⟨rfl, rfl, rfl, rfl, rfl, rfl, rfl⟩

/-- Settles O37: the shut gate, the three ungated commands, and what each of them does; a clear does not see the old ERR. -/
theorem gateIgnoresGatedCommands : Obligations.GateIgnoresGatedCommands := by
  refine ⟨fun d s he hg => execDecoded_of_err hg he, isGated_eq_false_iff, exec_nop, exec_rd, fun s e => ?_⟩
  exact ⟨_, execDecoded_init s, execDecoded_init { s with err := e }, rfl, sameElements_clear s .type, rfl⟩

end Sys2Proof.Machine
end

-- ==== Proofs: 70_reset_and_hazards.md (rules R230 to R246) ====
section

namespace Sys2Proof.Machine

/-! ### `rst` -/

/-- A `rst` step leaves nothing of the state before it; only the host's later inputs stay (rules R230, R231). -/
theorem State.applyRst_eq_reset (s : State) : s.applyRst = { State.reset with inputs := s.inputs } := rfl

/-- A step on a first input `rst` (rule R230). -/
theorem step_rst {s : State} {rest : List HostInput} (h : s.inputs = .rst :: rest) :
    step s = .next { State.reset with inputs := rest } := by
  simp only [step, h, State.applyRst_eq_reset]

/-- Settles O3: a run splits before its last input, and the step on that input is a `rst` step. -/
theorem rstDropsWhateverCameBefore : Obligations.RstDropsWhateverCameBefore := by
  intro s t xs h
  obtain ⟨u, -, hlast⟩ := runs_append.mp h
  have hrst : step { u with inputs := [.rst] } = .next State.reset := step_rst rfl
  exact Host.Outcome.next.inj ((runs_singleton.mp hlast).symm.trans hrst)

/-- Settles O2: both states have `rst` as their next input, and their elements do not matter. -/
theorem rstStepResetsAnyState : Obligations.RstStepResetsAnyState := fun _ _ => ⟨step_rst rfl, step_rst rfl⟩

/-! ### The state after reset -/

/-- The state after reset is a clear into IDLE (rules R231, R234). -/
theorem State.reset_clear : State.reset.clear .idle = State.reset := rfl

/-- STATUS after reset (rule R231). -/
theorem State.reset_status : State.reset.status = 0x00000000#32 := by
  rw [← State.reset_clear, State.clear_status]
  rfl

/-- FLAGS after reset (rule R231). -/
theorem State.reset_flags : State.reset.flags = 0x00000017#32 := by
  rw [← State.reset_clear, State.clear_flags]

/-- Settles O1: the elements and ID are the definition's values, and the derived words are those after a clear. -/
theorem resetLeavesStatedValues : Obligations.ResetLeavesStatedValues :=
  ⟨rfl, rfl, rfl, rfl, rfl, rfl, rfl, rfl, rfl, State.reset_status, State.reset_flags, State.readReg_six⟩

/-- Settles O4: INIT answers from every state, and what it leaves is a clear into TYPE. -/
theorem initLeavesResetStateButPhase : Obligations.InitLeavesResetStateButPhase := fun s =>
  ⟨_, execDecoded_init s, sameElements_clear s .type, rfl⟩

/-- Settles O46: the invariant holds after any clear into IDLE. -/
theorem resetHasTheInvariant : Obligations.ResetHasTheInvariant := by
  rw [Obligations.ResetHasTheInvariant, ← State.reset_clear]
  exact State.clear_inv State.reset (by decide)

end Sys2Proof.Machine
end
